-- ==== Sys2Proof/Word.lean ====
section
/-! DEFINITION. The words of the hardware: a register of the host window, a data byte, a sample
and a bus address (00_scope.md R8: `HREG_BITS` 32, `DATA_BITS` 8, `ADDR_BITS` 7; 10_state.md R34:
a RawSample has 16 bits). -/

namespace Sys2Proof

/-- A data byte, a register offset inside a slave, a byte of RXBUF or FRAME. -/
abbrev Byte := BitVec 8

/-- A RawSample: 16 bits, two's complement. -/
abbrev Half := BitVec 16

/-- A register of the host window, and a command word. -/
abbrev Word := BitVec 32

/-- A BusAddress, 0 to 127; every value is legal (20_memory.md R72). -/
abbrev Addr := BitVec 7

end Sys2Proof
end

