-- ==== Sys2Proof/Machine/Bus.lean ====
section
/-! DEFINITION. The primitive interface between TXC and the bus: primitives as tagged values
(30_encoding.md R109, R110) and their response sets (R111). -/

namespace Sys2Proof.Machine

/-- The direction tag (00_scope.md R23): `w` the write direction, `r` the read direction. -/
inductive Dir where
  | w
  | r
  deriving DecidableEq, Repr

/-- The five primitives (30_encoding.md R110). -/
inductive Prim where
  | start (a : Addr) (d : Dir)
  | restart (a : Addr) (d : Dir)
  | wbyte (b : Byte)
  /-- `more`: the master acknowledges the byte, further bytes are wanted. -/
  | rbyte (more : Bool)
  | stop
  deriving DecidableEq, Repr

/-- The responses (30_encoding.md R111). -/
inductive Response where
  | ack
  | nack
  | timeout
  | data (v : Byte)
  | done
  deriving DecidableEq, Repr, Inhabited

/-- The response sets of 30_encoding.md R111. There is no response for lost arbitration or a busy
bus (R112). -/
def Prim.allows : Prim → Response → Bool
  | .start _ _, .ack | .start _ _, .nack | .start _ _, .timeout => true
  | .restart _ _, .ack | .restart _ _, .nack | .restart _ _, .timeout => true
  | .wbyte _, .ack | .wbyte _, .nack | .wbyte _, .timeout => true
  | .rbyte _, .data _ | .rbyte _, .timeout => true
  | .stop, .done | .stop, .timeout => true
  | _, _ => false

/-- One entry of the bus trace: a primitive and the response it was given (00_scope.md R20). -/
abbrev TraceEntry := Prim × Response

end Sys2Proof.Machine
end

