-- ==== Sys2Proof/Machine/HostTypes.lean ====
section
/-! DEFINITION. The types of the host agent: its state HSTATE (10_state.md R51), the points of the
sequences of 42_sequences.md, the bus functions and host directives of 30_encoding.md R113, R118 and what the host hands to
its collaborators (42_sequences.md R202). -/

namespace Sys2Proof.Machine

/-- HSTATE, the Sampling Controller's state (42_sequences.md R206). -/
inductive HState where
  | idle
  | statusCheck
  | acquire
  | decode
  | emit
  deriving DecidableEq, Repr

/-- The two control registers of CONFIGURE (42_sequences.md R203). -/
inductive CtrlReg where
  | ctrl1
  | ctrl4
  deriving DecidableEq, Repr

/-- The three parts of a command line of a host sequence (42_sequences.md R200): the write of CMD,
the poll of BUSY, the read of STAT. -/
inductive CmdPoint where
  | submit
  | wait
  | stat
  deriving DecidableEq, Repr

/-- Where the Sampling Controller is: the boot order of 70_reset_and_hazards.md R263, then the loop
of 42_sequences.md R207. -/
inductive CtlPoint where
  /-- SCAN at address `a` (R201). -/
  | scan (a : Addr) (p : CmdPoint)
  /-- CONFIGURE: the RDREG of a control register (R203). -/
  | cfgRead (c : CtrlReg) (p : CmdPoint)
  /-- CONFIGURE: the read of `RXBUF[0]` and the comparison with the target. -/
  | cfgByte (c : CtrlReg)
  /-- CONFIGURE: the WRREG of a control register. -/
  | cfgWrite (c : CtrlReg) (p : CmdPoint)
  /-- Boot step (d), SETMODE. -/
  | setMode
  /-- Boot step (e), start the tick source. -/
  | startTick
  /-- Idle: poll PEND (R207). -/
  | idle
  /-- StatusCheck: the RDREG of STATUS. -/
  | status (p : CmdPoint)
  /-- StatusCheck: the read of `RXBUF[0]` and the test of ZYXDA. -/
  | statusByte
  /-- Acquire: the RDMULTI of the sample block. -/
  | acquire (p : CmdPoint)
  /-- Decode: DECODE. -/
  | decode (p : CmdPoint)
  /-- Decode: SCALE. -/
  | scale (p : CmdPoint)
  /-- Emit: FRAME. -/
  | frame (p : CmdPoint)
  /-- Emit: the read of FRAMELEN. -/
  | frameLen
  /-- Emit: the read of `FRAME[i]`, of `n` bytes. -/
  | frameByte (i n : Nat)
  /-- Emit: hand the frame to the byte sink. -/
  | send
  /-- `PEND <- 0; goto Idle`, from the state `h`. -/
  | clear (h : HState)
  deriving DecidableEq, Repr

/-- Where the host starts after reset: SCAN when `scan` says that it runs, else CONFIGURE
(70_reset_and_hazards.md R263; SCAN is optional, 42_sequences.md R206). DESIGN CHOICE (log 27): the
spec leaves it to the host, the model makes it a parameter. -/
def bootStart (scan : Bool) : CtlPoint :=
  if scan then .scan 0 .submit else .cfgRead .ctrl1 .submit

/-- Where a READBACK_CHECK is (42_sequences.md R204). `ok`: every command so far ended with
`CODE = 0`. -/
inductive ReadbackPoint where
  | read1 (p : CmdPoint)
  | byte1 (ok : Bool)
  | write (v1 : Byte) (ok : Bool) (p : CmdPoint)
  | read2 (v1 : Byte) (ok : Bool) (p : CmdPoint)
  | byte2 (v1 : Byte) (ok : Bool)
  deriving DecidableEq, Repr

/-- The source's `BusError` (30_encoding.md R113, 60_exceptions.md R230). -/
inductive BusError where
  | noAck
  | timeout
  deriving DecidableEq, Repr

/-- The source's `Result<_, BusError>` (30_encoding.md R113). -/
inductive BusResult (α : Type) where
  | ok (value : α)
  | err (e : BusError)
  deriving DecidableEq, Repr

/-- A call of one of the source's four bus functions (30_encoding.md R113, R117). -/
inductive BusCall where
  /-- `probe(address)`. -/
  | probe (a : Addr)
  /-- `read_register(address, register_offset)`. -/
  | readRegister (a : Addr) (off : Byte)
  /-- `read_registers_multi(address, start_offset, count)`, `count` being `last + 1`: no count outside
  1 to RXDEPTH can be formed (30_encoding.md R113). Log 28. -/
  | readRegistersMulti (a : Addr) (off : Byte) (last : Fin 8)
  /-- `write_register(address, register_offset, value)`. -/
  | writeRegister (a : Addr) (off val : Byte)
  deriving DecidableEq, Repr

/-- What a bus function returns (30_encoding.md R113). -/
inductive ReturnValue where
  /-- The `bool` of `probe`. -/
  | present (b : Bool)
  /-- The `Result<byte, BusError>` of `read_register`. -/
  | byte (r : BusResult Byte)
  /-- The `Result<[byte; count], BusError>` of `read_registers_multi`, `RXBUF[0]` first. -/
  | bytes (r : BusResult (List Byte))
  /-- The `Result<(), BusError>` of `write_register`. -/
  | unit (r : BusResult Unit)
  deriving DecidableEq, Repr

/-- Where a bus call is (30_encoding.md R113): its command line, then the reads of RXBUF. -/
inductive CallPoint where
  | command (p : CmdPoint)
  /-- The read of `RXBUF[i]`; `v` is the STAT word, `got` the bytes before it. -/
  | byte (v : Word) (i : Fin 8) (got : List Byte)
  deriving DecidableEq, Repr

/-- The host directives (30_encoding.md R118), the two accesses they stand for (20_memory.md R76 to
R79), the clear of PEND (60_exceptions.md R242, R253), READBACK_CHECK (42_sequences.md R204) and a
call of a bus function (30_encoding.md R113).
A host program is a list of them. -/
inductive Directive where
  | submit (w : Word)
  | wait
  | setMode (v : Word)
  | ldrx (i : Fin 8) (v : Word)
  | rdStat
  /-- `HostRead` of `width` bytes at `off`; only `width = 4`, aligned, has a meaning (R79). -/
  | read (off width : Nat)
  /-- `HostWrite` of `width` bytes at `off`. -/
  | write (off width : Nat) (v : Word)
  | clearPend
  | readback (a : Addr) (off : Byte) (p : ReadbackPoint)
  | call (c : BusCall) (p : CallPoint)
  deriving DecidableEq, Repr

end Sys2Proof.Machine
end

