-- ==== Sys2Proof/Config.lean ====
section
/-! DEFINITION. What is fixed for a run (the parameters of 00_scope.md R8) and the free values:
opaque constants, with no body, of which no proof can know a value. -/

namespace Sys2Proof

/-- `QUANT`, the rounding of the one division of SCALE (00_scope.md R8, 41_decoder.md R175). -/
inductive Quant where
  | trunc
  | nearest
  deriving DecidableEq, Repr

/-- `SHIFT` of a ModeTable row: 4 or 6 (41_decoder.md R171). -/
inductive ShiftSel where
  | four
  | six
  deriving DecidableEq, Repr

/-- `SENS` of a ModeTable row: 2 or 4 mg per digit (41_decoder.md R171). -/
inductive SensSel where
  | two
  | four
  deriving DecidableEq, Repr

/-- `UNIT` of a ModeTable row: mg, or m/s² times 1000 (41_decoder.md R171). -/
inductive AccUnit where
  | mg
  | ms2
  deriving DecidableEq, Repr

/-- `WIDTH` of a ModeTable row: 2 or 4 bytes per axis field (41_decoder.md R171). -/
inductive WidthSel where
  | two
  | four
  deriving DecidableEq, Repr

/-- One row of `ModeTable`, with any values of the sets of 41_decoder.md R171. -/
structure ModeRow where
  shift : ShiftSel
  sens  : SensSel
  unit  : AccUnit
  width : WidthSel
  deriving DecidableEq, Repr

/-- `ModeTable`: the row for `MODE.SEL = 0` and the row for `MODE.SEL = 1` (41_decoder.md R171). -/
structure ModeTable where
  row0 : ModeRow
  row1 : ModeRow
  deriving DecidableEq, Repr

/-- The parameters of 00_scope.md R8 that the spec leaves OPEN, and the numeric literals of the source,
each a parameter with the source's value as its default (93_implementation_defined.md U5). No step of
any agent changes them (10_state.md R31). -/
structure Params where
  /-- `HDR`, the frame header. -/
  header : Byte
  /-- `FTR`, the frame footer. -/
  footer : Byte
  /-- `G_MILLI`, the gravitational constant times 1000. -/
  gMilli : Nat
  /-- `TICK_PERIOD` in milliseconds; timing, read by nothing (60_exceptions.md R248). -/
  tickPeriodMs : Nat
  /-- `ZYXDA_BIT`, new data available, a bit number of the slave's STATUS. -/
  zyxdaBit : Fin 8
  /-- `ZYXOR_BIT`, data overrun; nothing tests it (42_sequences.md R208). -/
  zyxorBit : Fin 8
  /-- `TIMEOUT_BUDGET`; no rule reads it. -/
  timeoutBudget : Nat
  /-- `AUTOINC_MASK`. -/
  autoincMask : Byte
  /-- `QUANT`. -/
  quant : Quant
  /-- `ModeTable`. -/
  modeTable : ModeTable
  /-- `DEV_ADDR`, the slave the host uses. -/
  devAddr : Addr
  /-- `OFF_WHO_AM_I`. -/
  offWhoAmI : Byte
  /-- `OFF_STATUS`. -/
  offStatus : Byte
  /-- `OFF_CTRL1`. -/
  offCtrl1 : Byte
  /-- `OFF_CTRL4`. -/
  offCtrl4 : Byte
  /-- `OFF_OUT`. -/
  offOut : Byte
  /-- `WHO_AM_I_VALUE`. -/
  whoAmIValue : Byte
  /-- `CTRL1_TARGET`. -/
  ctrl1Target : Byte
  /-- `CTRL4_TARGET`. -/
  ctrl4Target : Byte
  /-- The `MODE.SEL` that matches the two targets (70_reset_and_hazards.md R263 d). -/
  bootMode : Bool
  /-- Whether the host runs the optional SCAN of boot step (b) (42_sequences.md R206,
  70_reset_and_hazards.md R263). Log 27. -/
  bootScan : Bool
  deriving DecidableEq, Repr

/-- The agents whose step the machine can take (00_scope.md R19), and `reset`, applied from outside
(70_reset_and_hazards.md R260). ENV takes no step of its own. -/
inductive Agent where
  | host
  | txc
  | tick
  | reset
  deriving DecidableEq, Repr, Inhabited

/-- Free value: the environment's answer to its `n`th draw for a primitive (20_memory.md R74: any
answer of the response set, independently of every earlier one). Log 2. -/
opaque Config.oracle : Nat → Machine.Prim → Machine.Response

/-- Free value: which agent moves at the `n`th unscheduled step (00_scope.md R19: any order).
Log 1. -/
opaque Config.pick : Nat → Agent

/-- Free value: byte `i` of RXBUF after the `n`th reset (10_state.md R52: unspecified). Log 3. -/
opaque Config.resetRxbuf : Nat → Nat → Byte
/-- Free value: `RAW[i]` after the `n`th reset (10_state.md R52). Log 3. -/
opaque Config.resetRaw : Nat → Nat → Half
/-- Free value: `PHYS[i]` after the `n`th reset (10_state.md R52). Log 3. -/
opaque Config.resetPhys : Nat → Nat → Word
/-- Free value: `FRAME[i]` after the `n`th reset (10_state.md R52). Log 3. -/
opaque Config.resetFrame : Nat → Nat → Byte

/-- Free value: `OFF_WHO_AM_I` (00_scope.md R8: OPEN, no value in the source). Log 4. -/
opaque Config.offWhoAmI : Byte
/-- Free value: `OFF_STATUS`. Log 4. -/
opaque Config.offStatus : Byte
/-- Free value: `OFF_CTRL1`. Log 4. -/
opaque Config.offCtrl1 : Byte
/-- Free value: `OFF_CTRL4`. Log 4. -/
opaque Config.offCtrl4 : Byte
/-- Free value: `OFF_OUT`. Log 4. -/
opaque Config.offOut : Byte
/-- Free value: `WHO_AM_I_VALUE`. Log 4. -/
opaque Config.whoAmIValue : Byte
/-- Free value: `CTRL1_TARGET`. Log 4. -/
opaque Config.ctrl1Target : Byte
/-- Free value: `CTRL4_TARGET`. Log 4. -/
opaque Config.ctrl4Target : Byte
/-- Free value: the `MODE.SEL` the boot sequence sets (70_reset_and_hazards.md R263 d). Log 16. -/
opaque Config.bootMode : Bool
/-- Free value: whether the boot sequence runs the optional SCAN (42_sequences.md R206: optional).
Log 27. -/
opaque Config.bootScan : Bool
/-- Free value: `TIMEOUT_BUDGET` (00_scope.md R8: OPEN, no default, no rule reads it). Log 25. -/
opaque Config.timeoutBudget : Nat

end Sys2Proof
end

