-- ==== Sys2Proof/Machine/Params.lean ====
section
/-! DEFINITION. The values that the source gives to the parameters of 00_scope.md R8. -/

namespace Sys2Proof.Machine

/-- `AXES` (00_scope.md R8). Log 5. -/
def axes : Nat := 3

/-- The row `NORMAL10_MG16` (41_decoder.md R171). -/
def normal10Mg16 : ModeRow := ⟨.six, .four, .mg, .two⟩
/-- The row `HIRES12_MS2_32` (41_decoder.md R171). -/
def hires12Ms2 : ModeRow := ⟨.four, .two, .ms2, .four⟩

/-- The values of 00_scope.md R8, of the source or default; where it gives none, the free value.
Log 4. -/
def defaultParams : Params where
  header := 0xA0
  footer := 0xC0
  gMilli := 9806
  tickPeriodMs := 10
  zyxdaBit := 3
  zyxorBit := 7
  timeoutBudget := Config.timeoutBudget
  autoincMask := 0x00
  quant := .trunc
  modeTable := ⟨normal10Mg16, hires12Ms2⟩
  devAddr := 0x18
  offWhoAmI := Config.offWhoAmI
  offStatus := Config.offStatus
  offCtrl1 := Config.offCtrl1
  offCtrl4 := Config.offCtrl4
  offOut := Config.offOut
  whoAmIValue := Config.whoAmIValue
  ctrl1Target := Config.ctrl1Target
  ctrl4Target := Config.ctrl4Target
  bootMode := Config.bootMode
  bootScan := Config.bootScan

/-- The row that a value of `MODE.SEL` selects (10_state.md R43, 41_decoder.md R171). -/
def modeRow (t : ModeTable) (sel : Bool) : ModeRow := if sel then t.row1 else t.row0

/-- `SHIFT` as a number of places (41_decoder.md R171). -/
def shiftPlaces : ShiftSel → Nat
  | .four => 4
  | .six => 6

/-- `SENS` in mg per digit (41_decoder.md R171). -/
def sensMg : SensSel → Int
  | .two => 2
  | .four => 4

/-- `WIDTH` in bytes (41_decoder.md R171). -/
def widthBytes : WidthSel → Nat
  | .two => 2
  | .four => 4

end Sys2Proof.Machine
end

