-- ==== Sys2Proof/Syntax.lean ====
section
/-! DEFINITION. The command set: one constructor per row of spec/opcode_table.json
(30_encoding.md R104). -/

namespace Sys2Proof

/-- The seven commands with the operands of 30_encoding.md R103 and R117. A field that a format
does not use is no operand: it must be zero in the word. -/
inductive Instr where
  /-- `PROBE A` (40_transactions.md R140). -/
  | probe (a : Addr)
  /-- `RDREG A, OFF` (R141). -/
  | rdreg (a : Addr) (off : Byte)
  /-- `RDMULTI A, OFF, COUNT` (R142); legal for `COUNT` 1 to 8. -/
  | rdmulti (a : Addr) (off count : Byte)
  /-- `WRREG A, OFF, VAL` (R143). -/
  | wrreg (a : Addr) (off val : Byte)
  /-- `DECODE` (41_decoder.md R173). -/
  | decode
  /-- `SCALE` (R176). -/
  | scale
  /-- `FRAME` (R180). -/
  | frame
  deriving DecidableEq, Repr

end Sys2Proof
end

