-- ==== Sys2Proof/Machine/State.lean ====
section
/-! DEFINITION. The state of the machine: the block (10_state.md R30), the environment
(20_memory.md R74, R90), the host (10_state.md R51), the bus trace, the parameters and the
schedule; the reasons a step can stop; and the state after reset (10_state.md R52). -/

namespace Sys2Proof.Machine

/-- `CODE` and `PCODE` (10_state.md R39, R48; 60_exceptions.md R230). -/
inductive Code where
  | ok
  | noack
  | timeout
  | illegal
  deriving DecidableEq, Repr

/-- `PHASE` (10_state.md R46); its numeric coding is not fixed. -/
inductive Phase where
  | idle
  | pStart
  | pOffset
  | pWdata
  | pRestart
  | pRdata
  | pStop
  deriving DecidableEq, Repr

/-- The registers of the block (10_state.md R30). -/
structure Block where
  /-- CMDREG, the last accepted command word (R38). -/
  cmdreg : Word
  /-- BUSY (R40). -/
  busy : Bool
  /-- DONE (R41). -/
  done : Bool
  /-- CODE (R41). -/
  code : Code
  /-- PRESENT (R41). -/
  present : Bool
  /-- OVR (R42). -/
  ovr : Bool
  /-- RXCNT (R33). -/
  rxcnt : BitVec 4
  /-- MODE.SEL (R43). -/
  modeSel : Bool
  /-- RXBUF (R32). -/
  rxbuf : Vector Byte 8
  /-- RAW (R34). -/
  raw : Vector Half 3
  /-- PHYS (R35). -/
  phys : Vector Word 3
  /-- FRAMELEN (R36). -/
  framelen : BitVec 4
  /-- FRAME (R36). -/
  frame : Vector Byte 14
  /-- PHASE (R46). -/
  phase : Phase
  /-- IDX (R47). -/
  idx : BitVec 4
  /-- PCODE (R48). -/
  pcode : Code
  deriving DecidableEq, Repr

/-- The bytes of the slave register space that differ from what an unlisted one reads as, sorted by
address with no repeats (20_memory.md R70, R90). -/
abbrev Memory := List Host.Cell

/-- Which environment answers the primitives: the unconstrained oracle (20_memory.md R74) or the
reference slave (R90). -/
inductive EnvKind where
  | oracle
  | reference
  deriving DecidableEq, Repr

/-- `sel` of the reference slave (20_memory.md R90). -/
inductive Sel where
  | none
  | writeFirst (a : Addr)
  | writeData (a : Addr)
  | read (a : Addr)
  deriving DecidableEq, Repr

/-- The environment (20_memory.md R74, R90). -/
structure Env where
  kind : EnvKind
  /-- The model's own counter: answers drawn from the oracle so far. Log 2. -/
  draws : Nat
  /-- `Dev`, the present addresses. -/
  dev : List Addr
  /-- `regs_a`, at the key `a * 256 + off`. -/
  regs : Memory
  /-- `ptr_a`, at the key `a`. -/
  ptrs : Memory
  /-- `ro_a`: the read-only offsets. -/
  ro : List (Addr × Byte)
  /-- `sel`. -/
  sel : Sel
  /-- `inject`, from trace index to response. -/
  inject : List (Nat × Response)
  deriving DecidableEq, Repr

/-- A report to the error-reporting collaborator: an event with a kind and the CODE
(42_sequences.md R202, 93_implementation_defined.md U15). Scan results and
write confirmations are reports too; `Report.toSink` says which go to the byte sink (log 26). -/
inductive Report where
  /-- SCAN found a device (R201). -/
  | devicePresent (a : Addr)
  /-- CONFIGURE: the read of a control register failed (R203). -/
  | readFailed (c : CtrlReg) (code : Code)
  /-- CONFIGURE: the control register was written. -/
  | written (c : CtrlReg)
  /-- CONFIGURE: the write of a control register failed. -/
  | writeFailed (c : CtrlReg) (code : Code)
  /-- SAMPLE_CYCLE: a bus error (R207). -/
  | busError (code : Code)
  deriving DecidableEq, Repr

/-- A message handed to the byte sink as one write: one of the two kinds of 60_exceptions.md R251. -/
inductive SinkMessage where
  /-- A human-readable diagnostic string, as the event it tells: it has no text in the spec
  (00_scope.md R7 e, 93_implementation_defined.md U15). Log 24. -/
  | text (r : Report)
  /-- An OutputFrame. -/
  | frame (bytes : List Byte)
  deriving DecidableEq, Repr

/-- The host (10_state.md R51). -/
structure HostSide where
  /-- PEND, the SamplePendingFlag (60_exceptions.md R240). -/
  pend : Bool
  /-- The tick source has been started (60_exceptions.md R241, R248). -/
  tickOn : Bool
  /-- The Sampling Controller; HSTATE is a view of it. -/
  ctl : CtlPoint
  /-- The bytes of the frame read so far (42_sequences.md R207). -/
  buf : List Byte
  /-- A program placed from outside; it runs before the Sampling Controller goes on. Log 6. -/
  prog : List Directive
  /-- Reports made, oldest first, whichever collaborator they went to (42_sequences.md R202). -/
  reports : List Report
  /-- Messages handed to the byte sink, in the order of delivery (60_exceptions.md R251). -/
  sink : List SinkMessage
  /-- Values the host has read, with their offsets, oldest first (00_scope.md R20 b). -/
  reads : List (Nat × Word)
  /-- Outcomes of READBACK_CHECK, oldest first (42_sequences.md R204). -/
  checks : List Bool
  /-- What each finished bus call returned, oldest first; none for a call that ended with `CODE = 3`,
  which has no counterpart in the source (30_encoding.md R113). -/
  returns : List (BusCall × Option ReturnValue)
  deriving DecidableEq, Repr

/-- The machine. -/
structure State where
  blk : Block
  env : Env
  host : HostSide
  /-- The bus trace since reset, oldest first (00_scope.md R20, 10_state.md R31). -/
  trace : List TraceEntry
  /-- The parameters of 00_scope.md R8; no step writes them. -/
  params : Params
  /-- The agents that move next; when empty, `Config.pick` chooses. The model's own. Log 1. -/
  sched : List Agent
  /-- Choices drawn from `Config.pick` so far. The model's own. Log 1. -/
  clock : Nat
  /-- Resets applied so far. The model's own. Log 3. -/
  resets : Nat
  deriving DecidableEq, Repr

/-- Why the machine stops. -/
inductive Fault where
  /-- Raised by the TXC step when BUSY is 1 and PHASE with CMDREG name no primitive. No state that a
  run reaches has this (10_state.md R40). Safe: the machine stops. Log 9. -/
  | noPrimitive
  deriving DecidableEq, Repr

/-- Why an instruction or an access has no meaning. -/
inductive Refusal where
  /-- Raised by `exec` for an instruction with no meaning yet. Safe: the machine stops. No arm of
  `exec` answers with it. -/
  | notModelled (mnemonic : String)
  /-- Raised by a host access of another width than 32 bits (20_memory.md R79). Safe: no step. -/
  | accessWidth
  /-- Raised by a host access at an offset that is no multiple of 4 (20_memory.md R79). Safe: no
  step. -/
  | unalignedAccess
  /-- Raised by a host access above offset 0xFF, which is not the block's (20_memory.md R78). Safe:
  no step. -/
  | outsideWindow
  /-- Raised by the TXC step when `inject` holds a response outside the response set of the
  primitive (20_memory.md R92). Safe: no step. Log 10. -/
  | responseOutsideSet
  deriving DecidableEq, Repr

/-- The outcome of a step of this machine. -/
abbrev StepOutcome := Host.Outcome State Fault Refusal

/-- The block after the `n`th reset (10_state.md R52): control and sequencing state zero or idle,
the data registers free values. Log 3. -/
def Block.atReset (n : Nat) : Block where
  cmdreg := 0x00000000
  busy := false
  done := false
  code := .ok
  present := false
  ovr := false
  rxcnt := 0
  modeSel := false
  rxbuf := Vector.ofFn fun i => Config.resetRxbuf n i
  raw := Vector.ofFn fun i => Config.resetRaw n i
  phys := Vector.ofFn fun i => Config.resetPhys n i
  framelen := 0
  frame := Vector.ofFn fun i => Config.resetFrame n i
  phase := .idle
  idx := 0
  pcode := .ok

/-- The environment that 20_memory.md R74 describes: the oracle. The reference slave's own state
is empty. Log 2, 12. -/
def Env.initial : Env where
  kind := .oracle
  draws := 0
  dev := []
  regs := []
  ptrs := []
  ro := []
  sel := .none
  inject := []

/-- The host at reset: PEND 0 (10_state.md R52), the boot order of 70_reset_and_hazards.md R263
before it, from its start under the default parameters. -/
def HostSide.initial : HostSide where
  pend := false
  tickOn := false
  ctl := bootStart defaultParams.bootScan
  buf := []
  prog := []
  reports := []
  sink := []
  reads := []
  checks := []
  returns := []

/-- The machine right after reset (10_state.md R52). -/
def State.reset : State where
  blk := Block.atReset 0
  env := Env.initial
  host := HostSide.initial
  trace := []
  params := defaultParams
  sched := []
  clock := 0
  resets := 1

end Sys2Proof.Machine
end

