-- ==== Sys2Proof/Machine/Arith.lean ====
section
/-! DEFINITION. The arithmetic of the decoder unit, over exact integers with one narrowing
(00_scope.md R11 to R13; 41_decoder.md R172, R175, R179). -/

namespace Sys2Proof.Machine

/-- `asr_16(v, k)` (00_scope.md R12): floor of the signed value over `2^k`. -/
def asr16 (v : Half) (k : Nat) : Half := BitVec.ofInt 16 (Int.fdiv v.toInt (2 ^ k))

/-- `compose(lo, hi)` (41_decoder.md R172). -/
def compose (lo hi : Byte) : Half := hi ++ lo

/-- `tdiv(n, d)`: truncation toward zero (00_scope.md R13). -/
def tdiv (n d : Int) : Int := n.sign * ((n.natAbs : Int) / d)

/-- `ndiv(n, d)`: nearest, ties away from zero (00_scope.md R13). -/
def ndiv (n d : Int) : Int := n.sign * ((2 * (n.natAbs : Int) + d) / (2 * d))

/-- `q` of 41_decoder.md R175. -/
def quantDiv : Quant → Int → Int → Int
  | .trunc => tdiv
  | .nearest => ndiv

/-- `scale(r, s, u)` (41_decoder.md R175): mg, or m/s² times 1000, with `G_MILLI = g`. -/
def scaleValue (q : Quant) (g : Nat) (u : AccUnit) (s r : Int) : Int :=
  match u with
  | .mg => r * s
  | .ms2 => quantDiv q (r * s * g) 1000

/-- `field(p, w)`, least significant byte first (41_decoder.md R179). -/
def axisField (w : Nat) (p : Word) : List Byte :=
  (List.range w).map fun j => p.extractLsb' (8 * j) 8

/-- The bytes of an OutputFrame (41_decoder.md R180; 30_encoding.md R114, R115) between `HDR` and
`FTR`. -/
def frameBytes (hdr ftr : Byte) (w : Nat) (phys : Vector Word 3) : List Byte :=
  [hdr] ++ axisField w phys[0] ++ axisField w phys[1] ++ axisField w phys[2] ++ [ftr]

/-- The FRAME registers with their first bytes replaced; the rest keep their values
(41_decoder.md R180). -/
def overlay (new : List Byte) (old : Vector Byte 14) : Vector Byte 14 :=
  Vector.ofFn fun i => (new[i.val]?).getD old[i]

end Sys2Proof.Machine
end

