-- ==== Sys2Proof/WellFormed.lean ====
section
/-! DEFINITION. The one operand check that a field's width does not make: `COUNT` of RDMULTI
(30_encoding.md R105). -/

namespace Sys2Proof

/-- `RXDEPTH`, the bytes of the receive buffer and the largest legal `COUNT` (00_scope.md R8,
92_eei_decisions.md D7). -/
def rxDepth : Nat := 8

/-- `1 <= COUNT <= RXDEPTH` (30_encoding.md R105). -/
def countInRange (count : Byte) : Bool :=
  decide (1 ≤ count.toNat ∧ count.toNat ≤ rxDepth)

/-- An instruction is well formed when its word is a command of 30_encoding.md R105. Every
address, offset and value is legal (R108, 20_memory.md R72, R84). -/
def Instr.wellFormed : Instr → Bool
  | .probe _ => true
  | .rdreg _ _ => true
  | .rdmulti _ _ count => countInRange count
  | .wrreg _ _ _ => true
  | .decode => true
  | .scale => true
  | .frame => true

end Sys2Proof
end

