-- ==== Sys2Proof/Decode.lean ====
section
/-! DEFINITION. Classification of a command word (30_encoding.md R102 to R107), total, rejecting
by name, and after it the encoder written from the same table. -/

namespace Sys2Proof

/-- Why a word is no command (30_encoding.md R107). All reasons have the same effect, `CODE = 3`
(60_exceptions.md R238e); the name is for the reader. -/
inductive Reject where
  /-- `RSV` is not 0. -/
  | reservedNotZero
  /-- `OP` is none of 1, 2, 3, 4, 8, 9, 0xA. -/
  | unusedOpcode
  /-- A field that the format does not use is not 0 (R103). -/
  | unusedFieldNotZero
  /-- RDMULTI with `COUNT` 0 or above `RXDEPTH`. -/
  | countOutOfRange
  deriving DecidableEq, Repr

/-- `OP`, bits 31:28 (30_encoding.md R102). -/
def fieldOp (w : Word) : BitVec 4 := w.extractLsb' 28 4
/-- `RSV`, bits 27:23. -/
def fieldRsv (w : Word) : BitVec 5 := w.extractLsb' 23 5
/-- `A`, bits 22:16. -/
def fieldA (w : Word) : Addr := w.extractLsb' 16 7
/-- `OFF`, bits 15:8. -/
def fieldOff (w : Word) : Byte := w.extractLsb' 8 8
/-- `ARG`, bits 7:0. -/
def fieldArg (w : Word) : Byte := w.extractLsb' 0 8

/-- `i` when the unused fields are zero (30_encoding.md R103). -/
def whenUnusedZero (zero : Bool) (i : Instr) : Except Reject Instr :=
  if zero then .ok i else .error .unusedFieldNotZero

/-- The classification of 30_encoding.md R105: a total function of the word alone. -/
def decodeWord (w : Word) : Except Reject Instr :=
  if fieldRsv w = 0 then
    match (fieldOp w).toNat with
    | 1 => whenUnusedZero (fieldOff w == 0 && fieldArg w == 0) (.probe (fieldA w))
    | 2 => whenUnusedZero (fieldArg w == 0) (.rdreg (fieldA w) (fieldOff w))
    | 3 =>
      if countInRange (fieldArg w) then .ok (.rdmulti (fieldA w) (fieldOff w) (fieldArg w))
      else .error .countOutOfRange
    | 4 => .ok (.wrreg (fieldA w) (fieldOff w) (fieldArg w))
    | 8 => whenUnusedZero (fieldA w == 0 && fieldOff w == 0 && fieldArg w == 0) .decode
    | 9 => whenUnusedZero (fieldA w == 0 && fieldOff w == 0 && fieldArg w == 0) .scale
    | 10 => whenUnusedZero (fieldA w == 0 && fieldOff w == 0 && fieldArg w == 0) .frame
    | _ => .error .unusedOpcode
  else .error .reservedNotZero

/-- A word from its five fields, `RSV` zero (30_encoding.md R102). -/
def packWord (op : BitVec 4) (a : Addr) (off arg : Byte) : Word :=
  op ++ (0 : BitVec 5) ++ a ++ off ++ arg

/-- The word of an instruction (30_encoding.md R104, R117). The word of an RDMULTI whose `COUNT`
is out of range is an illegal word. -/
def encode : Instr → Word
  | .probe a => packWord 0x1 a 0 0
  | .rdreg a off => packWord 0x2 a off 0
  | .rdmulti a off count => packWord 0x3 a off count
  | .wrreg a off val => packWord 0x4 a off val
  | .decode => packWord 0x8 0 0 0
  | .scale => packWord 0x9 0 0 0
  | .frame => packWord 0xA 0 0 0

/-- `match` of the row of spec/opcode_table.json (30_encoding.md R104). -/
def Instr.rowMatch : Instr → Word
  | .probe _ => 0x10000000
  | .rdreg _ _ => 0x20000000
  | .rdmulti _ _ _ => 0x30000000
  | .wrreg _ _ _ => 0x40000000
  | .decode => 0x80000000
  | .scale => 0x90000000
  | .frame => 0xA0000000

/-- `mask` of the row of spec/opcode_table.json (30_encoding.md R104). -/
def Instr.rowMask : Instr → Word
  | .probe _ => 0xFF80FFFF
  | .rdreg _ _ => 0xFF8000FF
  | .rdmulti _ _ _ => 0xFF800000
  | .wrreg _ _ _ => 0xFF800000
  | .decode => 0xFFFFFFFF
  | .scale => 0xFFFFFFFF
  | .frame => 0xFFFFFFFF

/-- The instruction that a command word of the opcode table decodes to, for the host's check. A
command is one 32-bit word (30_encoding.md R101), so bits above `nbits` are zero. -/
def decodeTableWord (nbits w : Nat) : Option Instr :=
  if nbits ≤ 32 ∧ w < 2 ^ 32 then (decodeWord (BitVec.ofNat 32 w)).toOption else none

end Sys2Proof
end

