-- ==== Sys2Proof/Machine/Operands.lean ====
section
/-! DEFINITION. The operands of a command (30_encoding.md R102, R106) and the registers of the host
window (20_memory.md R71). -/

namespace Sys2Proof.Machine

/-- The command in CMDREG (10_state.md R38: the only copy of the operands). -/
def Block.command (b : Block) : Option Instr := (decodeWord b.cmdreg).toOption

/-- `A` of a TXC command; a decoder command has none (30_encoding.md R103). -/
def busAddr : Instr → Option Addr
  | .probe a => some a
  | .rdreg a _ => some a
  | .rdmulti a _ _ => some a
  | .wrreg a _ _ => some a
  | .decode => none
  | .scale => none
  | .frame => none

/-- The command is a TXC command (30_encoding.md R105). -/
def isTxc (i : Instr) : Bool := (busAddr i).isSome

/-- The offset byte that goes on the bus (30_encoding.md R106, 40_transactions.md R134): RDMULTI
alone applies `AUTOINC_MASK`. -/
def offsetByte (p : Params) : Instr → Option Byte
  | .rdreg _ off => some off
  | .rdmulti _ off _ => some (off ||| p.autoincMask)
  | .wrreg _ off _ => some off
  | .probe _ => none
  | .decode => none
  | .scale => none
  | .frame => none

/-- `N`, the bytes the command reads (30_encoding.md R106). -/
def readCount : Instr → Nat
  | .rdreg _ _ => 1
  | .rdmulti _ _ count => count.toNat
  | .probe _ => 0
  | .wrreg _ _ _ => 0
  | .decode => 0
  | .scale => 0
  | .frame => 0

/-- `VAL`, the byte WRREG writes (30_encoding.md R102). -/
def writeValue : Instr → Option Byte
  | .wrreg _ _ val => some val
  | .probe _ => none
  | .rdreg _ _ => none
  | .rdmulti _ _ _ => none
  | .decode => none
  | .scale => none
  | .frame => none

/-- The registers of the host window (20_memory.md R71). -/
inductive Reg where
  | cmd
  | stat
  | mode
  | rxbuf (i : Fin 8)
  | raw (i : Fin 3)
  | phys (i : Fin 3)
  | framelen
  | frame (i : Fin 14)
  | reserved
  deriving DecidableEq, Repr

/-- The register at word `k` of the window, that is at offset `4 * k` (20_memory.md R71). -/
def regAtWord (k : Nat) : Reg :=
  if k = 0 then .cmd
  else if k = 1 then .stat
  else if k = 2 then .mode
  else if h : 4 ≤ k ∧ k < 12 then .rxbuf ⟨k - 4, by omega⟩
  else if h : 12 ≤ k ∧ k < 15 then .raw ⟨k - 12, by omega⟩
  else if h : 16 ≤ k ∧ k < 19 then .phys ⟨k - 16, by omega⟩
  else if k = 20 then .framelen
  else if h : 24 ≤ k ∧ k < 38 then .frame ⟨k - 24, by omega⟩
  else .reserved

/-- The register a host access reaches. Only aligned 32-bit accesses inside the window have a
meaning (20_memory.md R78, R79). -/
def accessed (off width : Nat) : Except Refusal Reg :=
  if width ≠ 4 then .error .accessWidth
  else if 0xFF < off then .error .outsideWindow
  else if off % 4 ≠ 0 then .error .unalignedAccess
  else .ok (regAtWord (off / 4))

/-- Byte offset of CMD (20_memory.md R71). -/
def offCmd : Nat := 0x00
/-- Byte offset of STAT. -/
def offStat : Nat := 0x04
/-- Byte offset of MODE. -/
def offMode : Nat := 0x08
/-- Byte offset of `RXBUF[i]`. -/
def offRxbuf (i : Nat) : Nat := 0x10 + 4 * i
/-- Byte offset of FRAMELEN. -/
def offFramelen : Nat := 0x50
/-- Byte offset of `FRAME[i]`. -/
def offFrame (i : Nat) : Nat := 0x60 + 4 * i

end Sys2Proof.Machine
end

