-- ==== Sys2Proof/Machine/Flags.lean ====
section
/-! DEFINITION. The status flags (10_state.md R39, R44): the STAT word and what a host read of every
register returns (R45). -/

namespace Sys2Proof.Machine

/-- One bit. -/
def bit (b : Bool) : BitVec 1 := if b then 1 else 0

/-- The coding of `CODE` (60_exceptions.md R230). -/
def codeBits : Code → BitVec 2
  | .ok => 0
  | .noack => 1
  | .timeout => 2
  | .illegal => 3

/-- The code that two bits of STAT mean to the host (60_exceptions.md R230). -/
def codeOfBits (c : BitVec 2) : Code :=
  if c = 0 then .ok else if c = 1 then .noack else if c = 2 then .timeout else .illegal

/-- STAT: BUSY [0], DONE [1], CODE [3:2], PRESENT [4], OVR [5], RXCNT [11:8], the rest 0
(10_state.md R39). -/
def Block.stat (b : Block) : Word :=
  (0 : BitVec 20) ++ b.rxcnt ++ (0 : BitVec 2) ++ bit b.ovr ++ bit b.present ++ codeBits b.code
    ++ bit b.done ++ bit b.busy

/-- What a host read of a register returns (10_state.md R45): RAW sign-extended, every other narrow
register zero-extended, a reserved offset 0 (20_memory.md R78). -/
def Block.readReg (b : Block) : Reg → Word
  | .cmd => b.cmdreg
  | .stat => b.stat
  | .mode => (bit b.modeSel).zeroExtend 32
  | .rxbuf i => (b.rxbuf[i]).zeroExtend 32
  | .raw i => (b.raw[i]).signExtend 32
  | .phys i => b.phys[i]
  | .framelen => b.framelen.zeroExtend 32
  | .frame i => (b.frame[i]).zeroExtend 32
  | .reserved => 0

/-- `STAT.BUSY` in a word the host read. -/
def statBusy (w : Word) : Bool := w.getLsbD 0
/-- `STAT.CODE` in a word the host read. -/
def statCode (w : Word) : Code := codeOfBits (w.extractLsb' 2 2)
/-- `STAT.PRESENT` in a word the host read. -/
def statPresent (w : Word) : Bool := w.getLsbD 4

end Sys2Proof.Machine
end

