-- ==== Sys2Proof/Machine/Ops.lean ====
section
/-! DEFINITION. The named operations on the block: acceptance (30_encoding.md R100), the abort that
takes the place of taking an exception and the end of a command that takes the place of returning
from it (60_exceptions.md R236, R239), the dropped write and reset. -/

namespace Sys2Proof.Machine

/-- What every accepting step does (30_encoding.md R100). -/
def Block.latch (w : Word) (b : Block) : Block :=
  { b with cmdreg := w, done := false, code := .ok, present := false, ovr := false }

/-- Acceptance of a TXC command (40_transactions.md R132). -/
def Block.acceptTxc (w : Word) (b : Block) : Block :=
  { b.latch w with rxcnt := 0, idx := 0, pcode := .ok, phase := .pStart, busy := true }

/-- Acceptance of an illegal word (60_exceptions.md R233). -/
def Block.acceptIllegal (w : Word) (b : Block) : Block :=
  { b.latch w with done := true, code := .illegal }

/-- Acceptance of a decoder command, but for the registers it computes (41_decoder.md R170). -/
def Block.acceptDecoder (w : Word) (b : Block) : Block :=
  { b.latch w with done := true, code := .ok }

/-- A host write that BUSY drops (10_state.md R42). -/
def Block.dropWrite (b : Block) : Block := { b with ovr := true }

/-- `raise NoAck` and `raise Timeout` inside a transaction: the abort (40_transactions.md R139,
60_exceptions.md R236). -/
def Block.abort (c : Code) (b : Block) : Block := { b with pcode := c, phase := .pStop }

/-- The end of a command with the code `c` and `n` valid bytes (40_transactions.md R138). There is
nothing else to return from (60_exceptions.md R239). -/
def Block.finish (c : Code) (n : Nat) (b : Block) : Block :=
  { b with
    code := c
    rxcnt := if c = .ok then BitVec.ofNat 4 n else 0
    done := true
    busy := false
    phase := .idle }

/-- `RAW`, all three together (10_state.md R34). -/
def Block.setRaw (r : Vector Half 3) (b : Block) : Block := { b with raw := r }
/-- `PHYS`, all three together (10_state.md R35). -/
def Block.setPhys (p : Vector Word 3) (b : Block) : Block := { b with phys := p }
/-- `FRAME` and `FRAMELEN` together (10_state.md R36). -/
def Block.setFrame (f : Vector Byte 14) (n : BitVec 4) (b : Block) : Block :=
  { b with frame := f, framelen := n }

/-- A host write of MODE: only bit 0 is stored (10_state.md R43). -/
def Block.writeMode (v : Word) (b : Block) : Block := { b with modeSel := v.getLsbD 0 }

/-- A host write of `RXBUF[i]`: dropped while BUSY, else bits 7:0 are stored (10_state.md R45). -/
def Block.writeRxbuf (i : Fin 8) (v : Word) (b : Block) : Block :=
  if b.busy then b.dropWrite else { b with rxbuf := b.rxbuf.set i (v.extractLsb' 0 8) }

/-- The block of a state replaced. -/
def State.withBlk (f : Block → Block) (s : State) : State := { s with blk := f s.blk }

/-- A write of CMD whose acceptance does `f`: dropped while BUSY (30_encoding.md R100). -/
def State.accept (f : Block → Block) (s : State) : StepOutcome :=
  .next (s.withBlk fun b => if b.busy then b.dropWrite else f b)

/-- Reset applied to the machine (70_reset_and_hazards.md R260 to R262): the table of 10_state.md
R52. The environment is not touched, no STOP is issued. Log 13. -/
def State.applyReset (s : State) : State :=
  { s with
    blk := Block.atReset s.resets
    host := { s.host with pend := false, tickOn := false, ctl := bootStart s.params.bootScan, buf := [] }
    trace := []
    resets := s.resets + 1 }

end Sys2Proof.Machine
end

