-- ==== Sys2Proof/Machine/Decoder.lean ====
section
/-! DEFINITION. The meanings of the three decoder commands: each completes inside its accepting step
(41_decoder.md R170) and reads `MODE.SEL` afresh (R184). -/

namespace Sys2Proof.Machine

/-- The ModeTable row in force (10_state.md R43). -/
def State.row (s : State) : ModeRow := modeRow s.params.modeTable s.blk.modeSel

/-- `RAW` as DECODE computes it from RXBUF with shift `k` (41_decoder.md R173). -/
def rawOf (k : Nat) (rx : Vector Byte 8) : Vector Half 3 :=
  #v[asr16 (compose rx[0] rx[1]) k, asr16 (compose rx[2] rx[3]) k, asr16 (compose rx[4] rx[5]) k]

/-- One lane of SCALE: the exact value narrowed to 32 bits (41_decoder.md R176). -/
def physLane (p : Params) (r : ModeRow) (v : Half) : Word :=
  BitVec.ofInt 32 (scaleValue p.quant p.gMilli r.unit (sensMg r.sens) v.toInt)

/-- `PHYS` as SCALE computes it from RAW (41_decoder.md R176). -/
def physOf (p : Params) (r : ModeRow) (raw : Vector Half 3) : Vector Word 3 :=
  #v[physLane p r raw[0], physLane p r raw[1], physLane p r raw[2]]

/-- `FRAMELEN` for a width of `w` bytes (41_decoder.md R180, R185). -/
def frameLength (w : Nat) : BitVec 4 := BitVec.ofNat 4 (2 + axes * w)

/-- DECODE (41_decoder.md R173). -/
def execDecode (s : State) : StepOutcome :=
  s.accept fun b =>
    (b.acceptDecoder (encode .decode)).setRaw (rawOf (shiftPlaces s.row.shift) b.rxbuf)

/-- SCALE (41_decoder.md R176). -/
def execScale (s : State) : StepOutcome :=
  s.accept fun b =>
    (b.acceptDecoder (encode .scale)).setPhys (physOf s.params s.row b.raw)

/-- FRAME (41_decoder.md R180). -/
def execFrame (s : State) : StepOutcome :=
  s.accept fun b =>
    (b.acceptDecoder (encode .frame)).setFrame
      (overlay
        (frameBytes s.params.header s.params.footer (widthBytes s.row.width) b.phys) b.frame)
      (frameLength (widthBytes s.row.width))

end Sys2Proof.Machine
end

