-- ==== Sys2Proof/Machine/Transactions.lean ====
section
/-! DEFINITION. The meanings of the four TXC commands: the accepting step (40_transactions.md R132).
Their primitives are the TXC steps of Machine/Txc.lean, one at a time, which read the operands from
CMDREG (10_state.md R38). -/

namespace Sys2Proof.Machine

/-- PROBE (40_transactions.md R140, R132). -/
def execProbe (a : Addr) (s : State) : StepOutcome :=
  s.accept (Block.acceptTxc (encode (.probe a)))

/-- RDREG (40_transactions.md R141, R132). -/
def execRdreg (a : Addr) (off : Byte) (s : State) : StepOutcome :=
  s.accept (Block.acceptTxc (encode (.rdreg a off)))

/-- RDMULTI (40_transactions.md R142, R132). With `COUNT` out of range its word is illegal and is
accepted as one (30_encoding.md R107). -/
def execRdmulti (a : Addr) (off count : Byte) (s : State) : StepOutcome :=
  if countInRange count then s.accept (Block.acceptTxc (encode (.rdmulti a off count)))
  else s.accept (Block.acceptIllegal (encode (.rdmulti a off count)))

/-- WRREG (40_transactions.md R143, R132). -/
def execWrreg (a : Addr) (off val : Byte) (s : State) : StepOutcome :=
  s.accept (Block.acceptTxc (encode (.wrreg a off val)))

end Sys2Proof.Machine
end

