-- ==== Sys2Proof/Machine/Dispatch.lean ====
section
/-! DEFINITION. The dispatch: one arm per constructor of `Instr`. -/

namespace Sys2Proof.Machine

/-- The effect of submitting an instruction: the write of its word to CMD (30_encoding.md R100). -/
def exec (i : Instr) (s : State) : Host.Outcome State Fault Refusal :=
  match i with
  | .probe a => Sys2Proof.Machine.execProbe a s
  | .rdreg a off => Sys2Proof.Machine.execRdreg a off s
  | .rdmulti a off count => Sys2Proof.Machine.execRdmulti a off count s
  | .wrreg a off val => Sys2Proof.Machine.execWrreg a off val s
  | .decode => Sys2Proof.Machine.execDecode s
  | .scale => Sys2Proof.Machine.execScale s
  | .frame => Sys2Proof.Machine.execFrame s

end Sys2Proof.Machine
end

