-- ==== Sys2Proof/Machine/HostAgent.lean ====
section
/-! DEFINITION. The host agent: the accesses to the register window (20_memory.md R76 to R79), the
host directives and the bus functions (30_encoding.md R118, R113) and the Sampling Controller (42_sequences.md, in the boot
order of 70_reset_and_hazards.md R263). One step is one register access, or one access to PEND, or
the start of the tick source, or the hand-over of a frame. A report has no step of its own: it is made
in the step of the STAT read that shows it is due. DESIGN CHOICE (log 15). -/

namespace Sys2Proof.Machine

/-- HSTATE (10_state.md R51); Idle during the boot sequence (R52). -/
def CtlPoint.hstate : CtlPoint → HState
  | .scan _ _ => .idle
  | .cfgRead _ _ => .idle
  | .cfgByte _ => .idle
  | .cfgWrite _ _ => .idle
  | .setMode => .idle
  | .startTick => .idle
  | .idle => .idle
  | .status _ => .statusCheck
  | .statusByte => .statusCheck
  | .acquire _ => .acquire
  | .decode _ => .decode
  | .scale _ => .decode
  | .frame _ => .emit
  | .frameLen => .emit
  | .frameByte _ _ => .emit
  | .send => .emit
  | .clear h => h

/-- HSTATE of the machine. -/
def State.hstate (s : State) : HState := s.host.ctl.hstate

/-! ### Small updates of the host side -/

/-- The Sampling Controller moves to a point. -/
def State.goto (c : CtlPoint) (s : State) : State := { s with host := { s.host with ctl := c } }
/-- A value the host has read is recorded (00_scope.md R20 b). -/
def State.logRead (off : Nat) (v : Word) (s : State) : State :=
  { s with host := { s.host with reads := s.host.reads ++ [(off, v)] } }
/-- What a report sends to the byte sink (42_sequences.md R202, 60_exceptions.md R251): a scan result and
a write confirmation are diagnostic strings. A failure goes to the error-reporting collaborator
(60_exceptions.md R250), and sends the byte sink nothing: of a failed cycle R209 says so, of a failure
in CONFIGURE it is a DESIGN CHOICE (log 26). -/
def Report.toSink (r : Report) : List SinkMessage :=
  match r with
  | .devicePresent _ => [.text r]
  | .written _ => [.text r]
  | .readFailed _ _ => []
  | .writeFailed _ _ => []
  | .busError _ => []

/-- `report(x)` (42_sequences.md R202): recorded, and a diagnostic string handed to the byte sink. The
host makes it in the same atomic step as the STAT read before it. DESIGN CHOICE (log 15): 00_scope.md
R19 does not say whether a hand-over to a collaborator is a step of its own. -/
def State.report (r : Report) (s : State) : State :=
  { s with host := { s.host with
      reports := s.host.reports ++ [r]
      sink := s.host.sink ++ r.toSink } }
/-- A directive put in front of the host's program. -/
def State.push (d : Directive) (s : State) : State :=
  { s with host := { s.host with prog := d :: s.host.prog } }
/-- `PEND <- v` (60_exceptions.md R242). -/
def State.setPend (v : Bool) (s : State) : State := { s with host := { s.host with pend := v } }
/-- The tick source is started (60_exceptions.md R248). -/
def State.startTick (s : State) : State := { s with host := { s.host with tickOn := true } }
/-- The bytes of the frame read so far. -/
def State.setBuf (l : List Byte) (s : State) : State := { s with host := { s.host with buf := l } }
/-- `send(bytes)`: one write to the byte sink (42_sequences.md R202, 60_exceptions.md R251), in a host
step of its own. DESIGN CHOICE (log 15). -/
def State.sendFrame (s : State) : State :=
  { s with host := { s.host with sink := s.host.sink ++ [.frame s.host.buf], buf := [] } }
/-- The outcome of a READBACK_CHECK is recorded (42_sequences.md R204). -/
def State.logCheck (v : Bool) (s : State) : State :=
  { s with host := { s.host with checks := s.host.checks ++ [v] } }
/-- What a bus call returned is recorded (30_encoding.md R113). -/
def State.logReturn (c : BusCall) (r : Option ReturnValue) (s : State) : State :=
  { s with host := { s.host with returns := s.host.returns ++ [(c, r)] } }

/-! ### Accesses -/

/-- A write of `w` to CMD (30_encoding.md R100): a command has its own meaning, an illegal word is
accepted with `CODE = 3` (60_exceptions.md R233); while BUSY either is dropped. -/
def submitWord (w : Word) (s : State) : StepOutcome :=
  match decodeWord w with
  | .ok i => exec i s
  | .error _ => s.accept (Block.acceptIllegal w)

/-- A host write of a register (10_state.md R45). -/
def writeReg (r : Reg) (v : Word) (s : State) : StepOutcome :=
  match r with
  | .cmd => submitWord v s
  | .stat => .next s
  | .mode => .next (s.withBlk (Block.writeMode v))
  | .rxbuf i => .next (s.withBlk (Block.writeRxbuf i v))
  | .raw _ => .next s
  | .phys _ => .next s
  | .framelen => .next s
  | .frame _ => .next s
  | .reserved => .next s

/-- `HostWrite(off, v)` of `width` bytes (20_memory.md R77 to R79). -/
def hostWrite (off width : Nat) (v : Word) (s : State) : StepOutcome :=
  match accessed off width with
  | .ok r => writeReg r v s
  | .error e => .refused e

/-- `HostRead(off)` of `width` bytes (20_memory.md R76, R78, R79): it changes nothing but the record
of what was read. -/
def hostRead (off width : Nat) (s : State) : StepOutcome :=
  match accessed off width with
  | .ok r => .next (s.logRead off (s.blk.readReg r))
  | .error e => .refused e

/-- The value of STAT as a host read of it returns it. -/
def State.statNow (s : State) : Word := s.blk.readReg .stat
/-- The byte `RXBUF[i]` as a host read of it returns it. -/
def State.rxByte (i : Fin 8) (s : State) : Byte := (s.blk.readReg (.rxbuf i)).extractLsb' 0 8
/-- `RXBUF[i]` read by the host and recorded. -/
def State.readRx (i : Fin 8) (s : State) : State := s.logRead (offRxbuf i) (s.blk.readReg (.rxbuf i))
/-- STAT read by the host and recorded. -/
def State.readStat (s : State) : State := s.logRead offStat s.statNow

/-- A command line of a host sequence (42_sequences.md R200): submit, wait until `BUSY = 0`, read
STAT. `goto` says how the sequence stays on the line, `after` how it goes on with the STAT word: it
acts in the step of the read of STAT, a report it makes included. DESIGN CHOICE (log 15). -/
def commandLine (i : Instr) (p : CmdPoint) (goto : CmdPoint → State → State)
    (after : Word → State → State) (s : State) : StepOutcome :=
  match p with
  | .submit => submitWord (encode i) (goto .wait s)
  | .wait => .next (goto (if statBusy s.statNow then .wait else .stat) s.readStat)
  | .stat => .next (after s.statNow s.readStat)

/-! ### The source's bus functions -/

/-- The command of a bus call (30_encoding.md R117). -/
def BusCall.instr : BusCall → Instr
  | .probe a => .probe a
  | .readRegister a off => .rdreg a off
  | .readRegistersMulti a off last => .rdmulti a off (BitVec.ofNat 8 (last.val + 1))
  | .writeRegister a off val => .wrreg a off val

/-- A `Result` from the STAT word of an ended command (30_encoding.md R113): `Ok` of the value when
`CODE = 0`, `Err` when it is 1 or 2; `CODE = 3` has no counterpart. -/
def busResult {α : Type} (v : Word) (x : Option α) : Option (BusResult α) :=
  match statCode v with
  | .ok => x.map .ok
  | .noack => some (.err .noAck)
  | .timeout => some (.err .timeout)
  | .illegal => none

/-- The return value of a bus call, from the STAT word of its command and the bytes of RXBUF that it
read (30_encoding.md R113). -/
def returnValue (c : BusCall) (v : Word) (rx : List Byte) : Option ReturnValue :=
  match c with
  | .probe _ => some (.present (statPresent v))
  | .readRegister _ _ => (busResult v rx.head?).map .byte
  | .readRegistersMulti _ _ _ => (busResult v (some rx)).map .bytes
  | .writeRegister _ _ _ => (busResult v (some ())).map .unit

/-- A bus call after the read of STAT: with `CODE = 0` the bytes it returns are read next, if it
returns any (30_encoding.md R113). -/
def callAfter (c : BusCall) (v : Word) (s : State) : State :=
  if statCode v = .ok ∧ 0 < readCount c.instr then s.push (.call c (.byte v 0 []))
  else s.logReturn c (returnValue c v [])

/-- A bus call after the read of `RXBUF[i]`, `rx` being the bytes so far (30_encoding.md R113). -/
def callByteAfter (c : BusCall) (v : Word) (i : Fin 8) (rx : List Byte) (s : State) : State :=
  if i.val + 1 < readCount c.instr then s.push (.call c (.byte v (i + 1) rx))
  else s.logReturn c (returnValue c v rx)

/-- A bus call (30_encoding.md R113). The step finds its directive taken from the program and puts
back what is left of it. -/
def callStep (c : BusCall) (p : CallPoint) (s : State) : StepOutcome :=
  match p with
  | .command q =>
    commandLine c.instr q (fun r => State.push (.call c (.command r))) (callAfter c) s
  | .byte v i got => .next (callByteAfter c v i (got ++ [s.rxByte i]) (s.readRx i))

/-! ### Host directives -/

/-- READBACK_CHECK (42_sequences.md R204). The step finds its directive taken from the program and
puts back what is left of it. -/
def readbackStep (a : Addr) (off : Byte) (p : ReadbackPoint) (s : State) : StepOutcome :=
  match p with
  | .read1 q =>
    commandLine (.rdreg a off) q (fun c => State.push (.readback a off (.read1 c)))
      (fun v => State.push (.readback a off (.byte1 (decide (statCode v = .ok))))) s
  | .byte1 ok =>
    .next ((s.readRx 0).push (.readback a off (.write (s.rxByte 0) ok .submit)))
  | .write v1 ok q =>
    commandLine (.wrreg a off v1) q (fun c => State.push (.readback a off (.write v1 ok c)))
      (fun v => State.push (.readback a off (.read2 v1 (ok && decide (statCode v = .ok)) .submit))) s
  | .read2 v1 ok q =>
    commandLine (.rdreg a off) q (fun c => State.push (.readback a off (.read2 v1 ok c)))
      (fun v => State.push (.readback a off (.byte2 v1 (ok && decide (statCode v = .ok))))) s
  | .byte2 v1 ok => .next ((s.readRx 0).logCheck (ok && s.rxByte 0 == v1))

/-- One host directive (30_encoding.md R118), already taken from the program. WAIT stays in front
while `BUSY = 1`. -/
def directiveStep (d : Directive) (s : State) : StepOutcome :=
  match d with
  | .submit w => submitWord w s
  | .wait => .next (if statBusy s.statNow then s.readStat.push .wait else s.readStat)
  | .setMode v => hostWrite offMode 4 v s
  | .ldrx i v => hostWrite (offRxbuf i) 4 v s
  | .rdStat => hostRead offStat 4 s
  | .read off width => hostRead off width s
  | .write off width v => hostWrite off width v s
  | .clearPend => .next (s.setPend false)
  | .readback a off p => readbackStep a off p s
  | .call c p => callStep c p s

/-- A command mnemonic alone on a line (30_encoding.md R118), with the read of STAT of 42_sequences.md
R200. -/
def commandDirectives (i : Instr) : List Directive := [.submit (encode i), .wait, .rdStat]

/-- DECODE_ALL (42_sequences.md R205). -/
def decodeAll : List Directive :=
  commandDirectives .decode ++ commandDirectives .scale ++ commandDirectives .frame

/-- READBACK_CHECK of the register (a, off) (42_sequences.md R204). -/
def readbackCheck (a : Addr) (off : Byte) : List Directive := [.readback a off (.read1 .submit)]

/-- A call of a bus function (30_encoding.md R113). -/
def busCall (c : BusCall) : List Directive := [.call c (.command .submit)]

/-- The read of WHO_AM_I that a host may make (42_sequences.md R213); the comparison with
`WHO_AM_I_VALUE` has no consequence. -/
def identify (p : Params) : List Directive :=
  commandDirectives (.rdreg p.devAddr p.offWhoAmI) ++ [.read (offRxbuf 0) 4]

/-- The comparison of 42_sequences.md R213. -/
def whoAmIMatches (p : Params) (v : Word) : Bool := v.extractLsb' 0 8 == p.whoAmIValue

/-! ### The Sampling Controller -/

/-- The offset of a control register (42_sequences.md R203). -/
def ctrlOffset (p : Params) : CtrlReg → Byte
  | .ctrl1 => p.offCtrl1
  | .ctrl4 => p.offCtrl4

/-- The target of a control register (42_sequences.md R203). -/
def ctrlTarget (p : Params) : CtrlReg → Byte
  | .ctrl1 => p.ctrl1Target
  | .ctrl4 => p.ctrl4Target

/-- The point after a control register: the next register, then SETMODE (42_sequences.md R203,
70_reset_and_hazards.md R263). -/
def nextCtrl : CtrlReg → CtlPoint
  | .ctrl1 => .cfgRead .ctrl4 .submit
  | .ctrl4 => .setMode

/-- SCAN after the probe of `a` (42_sequences.md R201), in the step of the read of STAT (log 15). -/
def scanAfter (a : Addr) (v : Word) (s : State) : State :=
  (if statPresent v then s.report (.devicePresent a) else s).goto
    (if a = 127 then .cfgRead .ctrl1 .submit else .scan (a + 1) .submit)

/-- CONFIGURE after the RDREG of a control register (42_sequences.md R203), in the step of the read of
STAT (log 15). -/
def cfgReadAfter (c : CtrlReg) (v : Word) (s : State) : State :=
  if statCode v = .ok then s.goto (.cfgByte c)
  else (s.report (.readFailed c (statCode v))).goto (nextCtrl c)

/-- CONFIGURE after the WRREG of a control register (42_sequences.md R203), in the step of the read of
STAT (log 15). -/
def cfgWriteAfter (c : CtrlReg) (v : Word) (s : State) : State :=
  (s.report (if statCode v = .ok then .written c else .writeFailed c (statCode v))).goto (nextCtrl c)

/-- SAMPLE_CYCLE after a bus command (42_sequences.md R207): on an error one report, in the step of the
read of STAT (log 15), then in a step of its own `PEND <- 0`, Idle; else the point `c`. -/
def busAfter (h : HState) (c : CtlPoint) (v : Word) (s : State) : State :=
  if statCode v = .ok then s.goto c
  else (s.report (.busError (statCode v))).goto (.clear h)

/-- The six-byte read of Acquire (42_sequences.md R207). -/
def acquireInstr (p : Params) : Instr := .rdmulti p.devAddr p.offOut 6

/-- Emit after the read of FRAMELEN or of a byte: byte `i` of `n` next, or the hand-over
(42_sequences.md R207). -/
def nextFrameByte (i n : Nat) : CtlPoint := if i < n then .frameByte i n else .send

/-- The read of `FRAME[i]` of Emit, of `n` bytes (42_sequences.md R207). -/
def frameByteStep (i n : Nat) (s : State) : StepOutcome :=
  match accessed (offFrame i) 4 with
  | .ok r =>
    .next (((s.logRead (offFrame i) (s.blk.readReg r)).setBuf
      (s.host.buf ++ [(s.blk.readReg r).extractLsb' 0 8])).goto (nextFrameByte (i + 1) n))
  | .error e => .refused e

/-- One step of the Sampling Controller (42_sequences.md R201, R203, R207; 70_reset_and_hazards.md
R263). -/
def ctlStep (s : State) : StepOutcome :=
  match s.host.ctl with
  | .scan a p => commandLine (.probe a) p (fun q => State.goto (.scan a q)) (scanAfter a) s
  | .cfgRead c p =>
    commandLine (.rdreg s.params.devAddr (ctrlOffset s.params c)) p
      (fun q => State.goto (.cfgRead c q)) (cfgReadAfter c) s
  | .cfgByte c =>
    .next ((s.readRx 0).goto (if s.rxByte 0 = ctrlTarget s.params c then nextCtrl c
      else .cfgWrite c .submit))
  | .cfgWrite c p =>
    commandLine (.wrreg s.params.devAddr (ctrlOffset s.params c) (ctrlTarget s.params c)) p
      (fun q => State.goto (.cfgWrite c q)) (cfgWriteAfter c) s
  | .setMode => hostWrite offMode 4 ((bit s.params.bootMode).zeroExtend 32) (s.goto .startTick)
  | .startTick => .next (s.startTick.goto .idle)
  | .idle => .next (if s.host.pend then s.goto (.status .submit) else s)
  | .status p =>
    commandLine (.rdreg s.params.devAddr s.params.offStatus) p (fun q => State.goto (.status q))
      (busAfter .statusCheck .statusByte) s
  | .statusByte =>
    .next ((s.readRx 0).goto (if (s.rxByte 0).getLsbD s.params.zyxdaBit then .acquire .submit
      else .clear .statusCheck))
  | .acquire p =>
    commandLine (acquireInstr s.params) p (fun q => State.goto (.acquire q))
      (busAfter .acquire (.decode .submit)) s
  | .decode p =>
    commandLine .decode p (fun q => State.goto (.decode q)) (fun _ => State.goto (.scale .submit)) s
  | .scale p =>
    commandLine .scale p (fun q => State.goto (.scale q)) (fun _ => State.goto (.frame .submit)) s
  | .frame p =>
    commandLine .frame p (fun q => State.goto (.frame q)) (fun _ => State.goto .frameLen) s
  | .frameLen =>
    .next (((s.logRead offFramelen (s.blk.readReg .framelen)).setBuf []).goto
      (nextFrameByte 0 (s.blk.readReg .framelen).toNat))
  | .frameByte i n => frameByteStep i n s
  | .send => .next (s.sendFrame.goto (.clear .emit))
  | .clear _ => .next ((s.setPend false).goto .idle)

/-- One step of the host: a directive of the program placed from outside, if there is one, else the
Sampling Controller. Log 6. -/
def hostStep (s : State) : StepOutcome :=
  match s.host.prog with
  | d :: rest => directiveStep d { s with host := { s.host with prog := rest } }
  | [] => ctlStep s

/-- The TICK step (60_exceptions.md R241); before the tick source is started there is none. Log 14. -/
def tickStep (s : State) : StepOutcome := .next (if s.host.tickOn then s.setPend true else s)

end Sys2Proof.Machine
end

