-- ==== Sys2Proof/Machine/Memory.lean ====
section
/-! DEFINITION. The slave register space as a list of cells in canonical form: addresses strictly
rising, no cell equal to what an unlisted address reads as. -/

namespace Sys2Proof.Machine

/-- What a register that is not listed reads as. DESIGN CHOICE (log 12): 20_memory.md R90 gives the
reference slave's registers no initial contents. -/
def blankByte : Byte := 0

/-- The canonical form. -/
abbrev Memory.wf (m : Memory) : Prop :=
  m.Pairwise (fun x y => x.1 < y.1) ∧ ∀ c ∈ m, c.2 ≠ blankByte

/-- The byte at a key. -/
def Memory.read : Memory → Nat → Byte
  | [], _ => blankByte
  | (k, v) :: m, a => if k = a then v else Memory.read m a

/-- A cell in front of a memory whose keys are all higher; a blank byte is not listed. -/
def Memory.cons (a : Nat) (v : Byte) (m : Memory) : Memory :=
  if v = blankByte then m else (a, v) :: m

/-- The memory with the byte `v` at the key `a`. -/
def Memory.write : Memory → Nat → Byte → Memory
  | [], a, v => Memory.cons a v []
  | (k, w) :: m, a, v =>
    if a < k then Memory.cons a v ((k, w) :: m)
    else if a = k then Memory.cons a v m
    else (k, w) :: Memory.write m a v

/-- The key of the register (a, off) of the slave register space (20_memory.md R70). -/
def slaveKey (a : Addr) (off : Byte) : Nat := a.toNat * 256 + off.toNat

/-- `regs_a[off]` (20_memory.md R90). -/
def Env.slaveReg (e : Env) (a : Addr) (off : Byte) : Byte := e.regs.read (slaveKey a off)

/-- `ptr_a` (20_memory.md R90). -/
def Env.pointer (e : Env) (a : Addr) : Byte := e.ptrs.read a.toNat

/-- `ptr_a <- p`. -/
def Env.setPointer (e : Env) (a : Addr) (p : Byte) : Env :=
  { e with ptrs := e.ptrs.write a.toNat p }

/-- `if off not in ro_a: regs_a[off] <- v` (20_memory.md R91). -/
def Env.storeReg (e : Env) (a : Addr) (off v : Byte) : Env :=
  if (a, off) ∈ e.ro then e else { e with regs := e.regs.write (slaveKey a off) v }

end Sys2Proof.Machine
end

