-- ==== Sys2Proof/Machine/Environment.lean ====
section
/-! DEFINITION. How the environment answers a primitive: the unconstrained oracle (20_memory.md R74)
or the reference slave (R90 to R92). -/

namespace Sys2Proof.Machine

/-- The oracle's answer to its `n`th draw: any response of the primitive's set (30_encoding.md
R111, 20_memory.md R74). Log 2. -/
def oracleAnswer (n : Nat) (p : Prim) : Response :=
  if p.allows (Config.oracle n p) then Config.oracle n p else .timeout

/-- START and RESTART at the reference slave (20_memory.md R91). -/
def Env.address (e : Env) (a : Addr) (d : Dir) : Response × Env :=
  if a ∈ e.dev then
    (.ack, { e with sel := match d with | .w => .writeFirst a | .r => .read a })
  else (.nack, { e with sel := .none })

/-- The reference slave's answers without an injection (20_memory.md R91). -/
def Env.reply (e : Env) : Prim → Response × Env
  | .start a d => e.address a d
  | .restart a d => e.address a d
  | .wbyte b =>
    match e.sel with
    | .writeFirst a => (.ack, { e.setPointer a b with sel := .writeData a })
    | .writeData a => (.ack, (e.storeReg a (e.pointer a) b).setPointer a (e.pointer a + 1))
    | .none => (.nack, e)
    | .read _ => (.nack, e)
  | .rbyte _ =>
    match e.sel with
    | .read a => (.data (e.slaveReg a (e.pointer a)), e.setPointer a (e.pointer a + 1))
    | .none => (.data 0xFF, e)
    | .writeFirst _ => (.data 0xFF, e)
    | .writeData _ => (.data 0xFF, e)
  | .stop => (.done, { e with sel := .none })

/-- The reference slave's state after an injected response (20_memory.md R92): unchanged, but that
an injected NACK or TIMEOUT to START or RESTART deselects. -/
def Env.injected (e : Env) (p : Prim) (r : Response) : Env :=
  match p, r with
  | .start _ _, .nack => { e with sel := .none }
  | .start _ _, .timeout => { e with sel := .none }
  | .restart _ _, .nack => { e with sel := .none }
  | .restart _ _, .timeout => { e with sel := .none }
  | _, _ => e

/-- The answer to the primitive with trace index `n`. -/
def answer (p : Prim) (n : Nat) (e : Env) : Response × Env :=
  match e.kind with
  | .oracle => (oracleAnswer e.draws p, { e with draws := e.draws + 1 })
  | .reference =>
    match e.inject.lookup n with
    | some r => (r, e.injected p r)
    | none => e.reply p

end Sys2Proof.Machine
end

