-- ==== Sys2Proof/Machine/Txc.lean ====
section
/-! DEFINITION. The TXC step (40_transactions.md R130): the primitive that PHASE names, the response,
and what each phase does with it (R133 to R138). A phase answers `none` to a response outside its
primitive's response set. -/

namespace Sys2Proof.Machine

/-- The primitive that PHASE names for a command (40_transactions.md R131); none where the command
has no such phase. -/
def nextPrim (p : Params) (i : Instr) (b : Block) : Option Prim :=
  match b.phase with
  | .idle => none
  | .pStart => (busAddr i).map fun a => .start a .w
  | .pOffset => (offsetByte p i).map .wbyte
  | .pWdata => (writeValue i).map .wbyte
  | .pRestart => if readCount i = 0 then none else (busAddr i).map fun a => .restart a .r
  | .pRdata =>
    if b.idx.toNat < readCount i then some (.rbyte (decide (b.idx.toNat + 1 ≠ readCount i)))
    else none
  | .pStop => if isTxc i then some .stop else none

/-- Phase P_START after the acknowledge (40_transactions.md R133). A decoder command has no such
phase. -/
def Block.started (i : Instr) (b : Block) : Block :=
  match i with
  | .probe _ => { b with present := true, phase := .pStop }
  | .rdreg _ _ => { b with phase := .pOffset }
  | .rdmulti _ _ _ => { b with phase := .pOffset }
  | .wrreg _ _ _ => { b with phase := .pOffset }
  | .decode => b
  | .scale => b
  | .frame => b

/-- Phase P_START (40_transactions.md R133). -/
def phaseStart (i : Instr) (r : Response) (b : Block) : Option Block :=
  match r with
  | .ack => some (b.started i)
  | .nack => some (b.abort .noack)
  | .timeout => some (b.abort .timeout)
  | .data _ => none
  | .done => none

/-- Phase P_OFFSET (40_transactions.md R134). -/
def phaseOffset (i : Instr) (r : Response) (b : Block) : Option Block :=
  match r with
  | .ack => some { b with phase := if (writeValue i).isSome then .pWdata else .pRestart }
  | .nack => some (b.abort .noack)
  | .timeout => some (b.abort .timeout)
  | .data _ => none
  | .done => none

/-- Phase P_WDATA (40_transactions.md R135). -/
def phaseWdata (r : Response) (b : Block) : Option Block :=
  match r with
  | .ack => some { b with phase := .pStop }
  | .nack => some (b.abort .noack)
  | .timeout => some (b.abort .timeout)
  | .data _ => none
  | .done => none

/-- Phase P_RESTART (40_transactions.md R136). -/
def phaseRestart (r : Response) (b : Block) : Option Block :=
  match r with
  | .ack => some { b with phase := .pRdata }
  | .nack => some (b.abort .noack)
  | .timeout => some (b.abort .timeout)
  | .data _ => none
  | .done => none

/-- `RXBUF[IDX] <- v`. An index above 7 names no byte; no reachable state has one. -/
def Block.storeRx (v : Byte) (b : Block) : Block :=
  { b with rxbuf := b.rxbuf.setIfInBounds b.idx.toNat v }

/-- Phase P_RDATA (40_transactions.md R137). -/
def phaseRdata (i : Instr) (r : Response) (b : Block) : Option Block :=
  match r with
  | .data v =>
    some (if b.idx.toNat + 1 = readCount i then { b.storeRx v with phase := .pStop }
      else { b.storeRx v with idx := b.idx + 1 })
  | .timeout => some (b.abort .timeout)
  | .ack => none
  | .nack => none
  | .done => none

/-- Phase P_STOP (40_transactions.md R138): a timeout of STOP is reported only when nothing failed
before (60_exceptions.md R238). -/
def phaseStop (i : Instr) (r : Response) (b : Block) : Option Block :=
  match r with
  | .done => some (b.finish b.pcode (readCount i))
  | .timeout => some (b.finish (if b.pcode = .ok then .timeout else b.pcode) (readCount i))
  | .ack => none
  | .nack => none
  | .data _ => none

/-- What the block does with the response of the primitive that PHASE names. -/
def Block.respond (i : Instr) (r : Response) (b : Block) : Option Block :=
  match b.phase with
  | .idle => none
  | .pStart => phaseStart i r b
  | .pOffset => phaseOffset i r b
  | .pWdata => phaseWdata r b
  | .pRestart => phaseRestart r b
  | .pRdata => phaseRdata i r b
  | .pStop => phaseStop i r b

/-- The primitive the next TXC step issues. -/
def State.pending (s : State) : Option (Instr × Prim) :=
  match s.blk.command with
  | some i => (nextPrim s.params i s.blk).map fun p => (i, p)
  | none => none

/-- A TXC step whose primitive `p` got the response `r` and left the environment `e`. -/
def txcWith (i : Instr) (p : Prim) (r : Response) (e : Env) (s : State) : StepOutcome :=
  match s.blk.respond i r with
  | some b => .next { s with blk := b, env := e, trace := s.trace ++ [(p, r)] }
  | none => .refused .responseOutsideSet

/-- The TXC step of a busy block (40_transactions.md R130): one primitive, its response from the
environment, the phase's update. -/
def txcStep (s : State) : StepOutcome :=
  match s.pending with
  | some (i, p) =>
    txcWith i p (answer p s.trace.length s.env).1 (answer p s.trace.length s.env).2 s
  | none => .fault .noPrimitive

end Sys2Proof.Machine
end

