-- ==== Sys2Proof/Machine/Agents.lean ====
section
/-! DEFINITION. One step of an agent, the choice of the agent, and where a command word is placed for
the next step. -/

namespace Sys2Proof.Machine

/-- The step of an agent (00_scope.md R19). TXC has a step exactly when `BUSY = 1`
(40_transactions.md R130): chosen while `BUSY = 0`, nothing happens. Log 17. -/
def agentStep (a : Agent) (s : State) : StepOutcome :=
  match a with
  | .host => hostStep s
  | .txc => if s.blk.busy then txcStep s else .next s
  | .tick => tickStep s
  | .reset => .next s.applyReset

/-- The agent that moves next and the state it finds: the first of the schedule, and when there is
none the free value (20_memory.md R94 e: any order). Log 1. -/
def State.choose (s : State) : Agent × State :=
  match s.sched with
  | a :: rest => (a, { s with sched := rest })
  | [] => (Config.pick s.clock, { s with clock := s.clock + 1 })

/-- The state whose very next step is the host's write of `w` to CMD (30_encoding.md R118, SUBMIT).
Log 6. -/
def State.placeWord (w : Word) (s : State) : State :=
  { s with
    sched := .host :: s.sched
    host := { s.host with prog := .submit w :: s.host.prog } }

end Sys2Proof.Machine
end

