-- ==== Sys2Proof/Machine/Step.lean ====
section
/-! DEFINITION. One step of the machine. -/

namespace Sys2Proof.Machine

/-- One step: an agent is chosen and takes its step (00_scope.md R19). -/
def step (s : State) : Host.Outcome State Fault Refusal := agentStep s.choose.1 s.choose.2

/-- `s` with the command word `w` placed so that the very next step is its submission. -/
def State.withFetchWord (s : State) (_nbits w : Nat) : State := s.placeWord (BitVec.ofNat 32 w)

end Sys2Proof.Machine
end

