-- ==== Sys2Proof/Safety.lean ====
section
/-! DEFINITION. What a safe run is, in the terms that the statements use: the invariant of the block's
sequencer, the canonical form of the slave register space, the shape of the bus trace, and runs of
TXC steps. -/

namespace Sys2Proof.Machine

/-- `k` TXC steps in a row (00_scope.md R19: the schedule that gives TXC every step). -/
def txcSteps : Nat → State → StepOutcome
  | 0, s => .next s
  | k + 1, s =>
    match agentStep .txc s with
    | .next t => txcSteps k t
    | .fault f => .fault f
    | .refused r => .refused r

/-- A command submitted and then `k` TXC steps. -/
def runCommand (i : Instr) (k : Nat) (s : State) : StepOutcome :=
  match exec i s with
  | .next t => txcSteps k t
  | .fault f => .fault f
  | .refused r => .refused r

/-- `k` host steps in a row. -/
def hostSteps : Nat → State → StepOutcome
  | 0, s => .next s
  | k + 1, s =>
    match agentStep .host s with
    | .next t => hostSteps k t
    | .fault f => .fault f
    | .refused r => .refused r

/-- The most TXC steps a command takes (40_transactions.md R144). -/
def stepBound : Instr → Nat
  | .probe _ => 2
  | .rdreg _ _ => 5
  | .rdmulti _ _ count => count.toNat + 4
  | .wrreg _ _ _ => 4
  | .decode => 0
  | .scale => 0
  | .frame => 0

/-- The environment can only answer inside the response sets: an oracle, or a reference slave with
nothing injected (20_memory.md R74, R91, R92). -/
def Env.wellBehaved (e : Env) : Prop := e.kind = .oracle ∨ e.inject = []

/-- The environment answers the primitive that the next TXC step issues inside its response set: the
answer may be an injected one (20_memory.md R74, R92). -/
def State.answersInSet (s : State) : Prop :=
  ∀ i p, s.pending = some (i, p) → p.allows (answer p s.trace.length s.env).1 = true

/-- The environment answers inside the response sets at every step of the command `i`. -/
def State.answersDuring (i : Instr) (s : State) : Prop :=
  ∀ j u, j < stepBound i → runCommand i j s = .next u → u.answersInSet

/-- The reference slave, nothing injected (20_memory.md R90). -/
def Env.plainSlave (e : Env) : Prop := e.kind = .reference ∧ e.inject = []

/-- The invariant of the block. -/
structure Block.Inv (p : Params) (b : Block) : Prop where
  /-- `BUSY = 1` exactly when PHASE is not IDLE (10_state.md R40). -/
  busyPhase : b.busy = true ↔ b.phase ≠ .idle
  /-- While `BUSY = 1`, `DONE = 0`, `CODE = 0` and `RXCNT = 0` (10_state.md R41,
  70_reset_and_hazards.md R266). -/
  busyFlags : b.busy = true → b.done = false ∧ b.code = .ok ∧ b.rxcnt = 0
  /-- While `BUSY = 1`, PHASE names a primitive of the command in CMDREG (10_state.md R46). -/
  sequenced : b.busy = true → ∃ i, b.command = some i ∧ (nextPrim p i b).isSome = true
  /-- IDX is 0 until the first RBYTE (40_transactions.md R136). -/
  idxZero : b.busy = true → b.phase ≠ .pRdata → b.phase ≠ .pStop → b.idx = 0
  /-- PCODE is 0 until a primitive fails, and a failure leads to P_STOP (40_transactions.md R139). -/
  firstFailure : b.busy = true → b.phase ≠ .pStop → b.pcode = .ok
  /-- PCODE is never ILLEGAL (10_state.md R48). -/
  pcodeBus : b.pcode ≠ .illegal
  /-- PRESENT is 1 only after a PROBE (10_state.md R39). -/
  presentProbe : b.present = true → ∃ a, b.command = some (.probe a)
  /-- `CODE = 3` only for a word that is no command (60_exceptions.md R230, R238 a). -/
  illegalWord : b.code = .illegal → b.command = none
  /-- RXCNT is at most RXDEPTH (10_state.md R33). -/
  rxcntRange : b.rxcnt.toNat ≤ rxDepth
  /-- FRAMELEN is 0 before a FRAME, 8 or 14 after one (10_state.md R36). -/
  frameLengths : b.framelen = 0 ∨ b.framelen = 8 ∨ b.framelen = 14

/-- The slave register space and the pointers are in canonical form. -/
def Env.canonical (e : Env) : Prop := Memory.wf e.regs ∧ Memory.wf e.ptrs

/-- The invariant of the machine. -/
structure State.Inv (s : State) : Prop where
  blk : s.blk.Inv s.params
  env : s.env.canonical

/-- Whether the bus is inside a transaction after some primitives, from `opened`; none when the
primitives do not have the shape of 40_transactions.md R145: a START opens a transaction, a STOP
closes it, every other primitive stands inside one. -/
def busAfterTrace (opened : Bool) : List TraceEntry → Option Bool
  | [] => some opened
  | (.start _ _, _) :: t => if opened then none else busAfterTrace true t
  | (.stop, _) :: t => if opened then busAfterTrace false t else none
  | (.restart _ _, _) :: t => if opened then busAfterTrace true t else none
  | (.wbyte _, _) :: t => if opened then busAfterTrace true t else none
  | (.rbyte _, _) :: t => if opened then busAfterTrace true t else none

/-- The bus trace has that shape, and the bus is inside a transaction exactly from the START on until
the STOP (40_transactions.md R145). -/
def State.busBracketed (s : State) : Prop :=
  busAfterTrace false s.trace = some (decide (s.blk.phase ≠ .idle ∧ s.blk.phase ≠ .pStart))

end Sys2Proof.Machine
end

