-- ==== Sys2Proof/Certificates/Slice0/Obligations.lean ====
section
/-! DEFINITION. The statements about the machine. Each docstring names the rules of spec/ it
formalises, or says that it is a consequence or rests on a choice of the model. -/

open Sys2Proof Sys2Proof.Machine

/-! ### Encoding -/

/-- Decoding the word of a well-formed instruction gives it back, with every operand
(30_encoding.md R102 to R105). -/
def Obligations.EncodedInstructionDecodesBack : Prop :=
  ∀ i : Instr, i.wellFormed = true → decodeWord (encode i) = .ok i

/-- A word that is a command has one meaning: it is the word of that well-formed instruction
(30_encoding.md R104: the masks make the rows disjoint). -/
def Obligations.CommandWordHasOneMeaning : Prop :=
  ∀ (w : Word) (i : Instr), decodeWord w = .ok i → i.wellFormed = true ∧ encode i = w

/-- The classification of 30_encoding.md R105, by the rows of R104 as match and mask. -/
def Obligations.ClassificationFollowsTableRows : Prop :=
  ∀ w : Word,
    ((∃ i, decodeWord w = .ok i ∧ isTxc i = true) ↔
      (w &&& 0xFF80FFFF#32 = 0x10000000#32 ∨ w &&& 0xFF8000FF#32 = 0x20000000#32 ∨
        w &&& 0xFF800000#32 = 0x40000000#32 ∨
        (w &&& 0xFF800000#32 = 0x30000000#32 ∧ 1 ≤ (w.extractLsb' 0 8).toNat ∧
          (w.extractLsb' 0 8).toNat ≤ 8))) ∧
    ((∃ i, decodeWord w = .ok i ∧ isTxc i = false) ↔
      (w = 0x80000000#32 ∨ w = 0x90000000#32 ∨ w = 0xA0000000#32))

/-- The command words of 30_encoding.md R117, and of the encoding lines of 40_transactions.md R140
to R143 and 41_decoder.md R173, R176, R180. -/
def Obligations.AssemblyGivesCommandWord : Prop :=
  (∀ a : Addr, encode (.probe a) = 0x10000000#32 ||| a.zeroExtend 32 <<< 16) ∧
  (∀ (a : Addr) (off : Byte),
    encode (.rdreg a off) = 0x20000000#32 ||| a.zeroExtend 32 <<< 16 ||| off.zeroExtend 32 <<< 8) ∧
  (∀ (a : Addr) (off n : Byte), encode (.rdmulti a off n) =
    0x30000000#32 ||| a.zeroExtend 32 <<< 16 ||| off.zeroExtend 32 <<< 8 ||| n.zeroExtend 32) ∧
  (∀ (a : Addr) (off val : Byte), encode (.wrreg a off val) =
    0x40000000#32 ||| a.zeroExtend 32 <<< 16 ||| off.zeroExtend 32 <<< 8 ||| val.zeroExtend 32) ∧
  encode .decode = 0x80000000#32 ∧ encode .scale = 0x90000000#32 ∧ encode .frame = 0xA0000000#32

/-- The worked encodings and illegal words of 30_encoding.md R120. -/
def Obligations.WorkedWordsDecode : Prop :=
  decodeWord 0x10180000 = .ok (.probe 0x18) ∧ decodeWord 0x107F0000 = .ok (.probe 127) ∧
  decodeWord 0x20182700 = .ok (.rdreg 0x18 0x27) ∧
  decodeWord 0x30182806 = .ok (.rdmulti 0x18 0x28 6) ∧
  decodeWord 0x40182057 = .ok (.wrreg 0x18 0x20 0x57) ∧
  ∀ w ∈ ([0x00000000, 0x50000000, 0x10980000, 0x10180001, 0x20182701, 0x30182800, 0x30182809,
    0x80000001] : List Word), (decodeWord w).toOption = none

/-! ### Acceptance -/

/-- Acceptance of a TXC command (40_transactions.md R132), for PROBE, RDREG, RDMULTI and WRREG with
every operand. Nothing else changes; the first primitive, START, is left to the next TXC step. -/
def Obligations.TxcCommandIsAccepted : Prop :=
  ∀ (i : Instr) (s : State), isTxc i = true → i.wellFormed = true → s.blk.busy = false →
    ∃ b : Block, b = { s.blk with
        cmdreg := encode i, done := false, code := .ok, present := false, ovr := false, rxcnt := 0,
        idx := 0, pcode := .ok, phase := .pStart, busy := true } ∧
      exec i s = .next { s with blk := b } ∧
      ∃ a, busAddr i = some a ∧ b.command = some i ∧
        nextPrim s.params i b = some (.start a .w)

/-- Acceptance of an illegal word (60_exceptions.md R233). Nothing else changes. -/
def Obligations.IllegalWordIsAccepted : Prop :=
  ∀ (w : Word) (e : Reject) (s : State), decodeWord w = .error e → s.blk.busy = false →
    hostWrite 0x00 4 w s = .next { s with blk := { s.blk with
      cmdreg := w, done := true, code := .illegal, present := false, ovr := false } }

/-- An RDMULTI whose `COUNT` is 0 or above 8 has an illegal word and the effect of one
(30_encoding.md R107, 60_exceptions.md R233). That `exec` answers for it at all is the model's
choice, log 7. -/
def Obligations.RdmultiCountOutOfRangeIsIllegal : Prop :=
  ∀ (a : Addr) (off count : Byte) (s : State), (count.toNat = 0 ∨ 8 < count.toNat) →
    s.blk.busy = false →
    (decodeWord (encode (.rdmulti a off count))).toOption = none ∧
    exec (.rdmulti a off count) s = .next { s with blk := { s.blk with
      cmdreg := encode (.rdmulti a off count), done := true, code := .illegal, present := false,
      ovr := false } }

/-- Writes of CMD and of RXBUF while `BUSY = 1` are dropped and set OVR, and an accepting step clears
it (10_state.md R42). -/
def Obligations.BusyWritesAreDropped : Prop :=
  (∀ (w : Word) (s : State), s.blk.busy = true →
    hostWrite 0x00 4 w s = .next { s with blk := { s.blk with ovr := true } } ∧
    ∀ i : Fin 8,
      hostWrite (0x10 + 4 * i.val) 4 w s = .next { s with blk := { s.blk with ovr := true } }) ∧
  (∀ (w : Word) (s : State), s.blk.busy = false →
    ∃ t, hostWrite 0x00 4 w s = .next t ∧ t.blk.ovr = false)

/-- Every instruction submitted while `BUSY = 1` is dropped: only OVR changes (30_encoding.md R100,
10_state.md R42). -/
def Obligations.InstructionWhileBusyIsDropped : Prop :=
  ∀ (i : Instr) (s : State), s.blk.busy = true →
    exec i s = .next { s with blk := { s.blk with ovr := true } }

/-- No instruction stops the machine, in any state and with any operands: each answers a next state
(a consequence of 30_encoding.md R100, R105). -/
def Obligations.NoInstructionStops : Prop :=
  ∀ (i : Instr) (s : State), ∃ t, exec i s = .next t ∧
    (s.blk.busy = false → t.blk.cmdreg = encode i ∧ t.blk.ovr = false)

/-- The frame of every instruction: submitting it touches only the block. It issues no primitive and
leaves the host and every byte of the slave register space alone; in the block it leaves MODE and
RXBUF alone, only DECODE writes RAW, only SCALE writes PHYS, only FRAME writes FRAME and FRAMELEN, and
a decoder command leaves the sequencer and RXCNT alone (30_encoding.md R100; 41_decoder.md R173, R176,
R180; 40_transactions.md R132). -/
def Obligations.InstructionFrame : Prop :=
  ∀ (i : Instr) (s t : State), exec i s = .next t →
    t.env = s.env ∧ t.host = s.host ∧ t.trace = s.trace ∧ t.params = s.params ∧
    t.sched = s.sched ∧ t.clock = s.clock ∧ t.resets = s.resets ∧
    t.blk.modeSel = s.blk.modeSel ∧ t.blk.rxbuf = s.blk.rxbuf ∧
    (∀ key, t.env.regs.read key = s.env.regs.read key) ∧
    (i ≠ .decode → t.blk.raw = s.blk.raw) ∧ (i ≠ .scale → t.blk.phys = s.blk.phys) ∧
    (i ≠ .frame → t.blk.frame = s.blk.frame ∧ t.blk.framelen = s.blk.framelen) ∧
    (isTxc i = false → t.blk.busy = s.blk.busy ∧ t.blk.phase = s.blk.phase ∧
      t.blk.idx = s.blk.idx ∧ t.blk.pcode = s.blk.pcode ∧ t.blk.rxcnt = s.blk.rxcnt)

/-! ### Decoder commands -/

/-- DECODE (41_decoder.md R173): each RawSample is the composed value floored over `2^k`; the flags
as the accepting step sets them; nothing else changes. -/
def Obligations.DecodeComputesRawSamples : Prop :=
  ∀ s : State, s.blk.busy = false → ∃ raw : Vector Half 3,
    exec .decode s = .next { s with blk := { s.blk with
      cmdreg := 0x80000000, done := true, code := .ok, present := false, ovr := false,
      raw := raw } } ∧
    ∀ i : Fin 3, (raw[i]).toInt =
      Int.fdiv (BitVec.toInt (s.blk.rxbuf[2 * i.val + 1] ++ s.blk.rxbuf[2 * i.val]))
        (match (modeRow s.params.modeTable s.blk.modeSel).shift with | .four => 16 | .six => 64)

/-- The range of a RawSample after DECODE (41_decoder.md R174). -/
def Obligations.RawSampleRangeAfterDecode : Prop :=
  ∀ (s : State) (k : Nat), s.blk.busy = false →
    k = shiftPlaces (modeRow s.params.modeTable s.blk.modeSel).shift →
    ∃ t, exec .decode s = .next t ∧ ∀ i : Fin 3,
      -(2 : Int) ^ (15 - k) ≤ (t.blk.raw[i]).toInt ∧ (t.blk.raw[i]).toInt ≤ 2 ^ (15 - k) - 1 ∧
      ∀ j : Nat, 16 - k ≤ j → j < 16 → (t.blk.raw[i]).getLsbD j = (t.blk.raw[i]).msb

/-- SCALE (41_decoder.md R176 with R175): mg is the product, m/s² times 1000 the product with `G_MILLI`
divided by 1000, truncated or rounded as 00_scope.md R13 says (a tie away from zero); `G_MILLI` is the
source's 9806 after reset; nothing else changes. -/
def Obligations.ScaleComputesPhysicalSamples : Prop :=
  State.reset.params.gMilli = 9806 ∧
  ∀ s : State, s.blk.busy = false → ∃ phys : Vector Word 3,
    exec .scale s = .next { s with blk := { s.blk with
      cmdreg := 0x90000000, done := true, code := .ok, present := false, ovr := false,
      phys := phys } } ∧
    ∀ i : Fin 3, phys[i] = BitVec.ofInt 32
      (match (modeRow s.params.modeTable s.blk.modeSel).unit, s.params.quant with
        | .mg, _ => (s.blk.raw[i]).toInt * sensMg (modeRow s.params.modeTable s.blk.modeSel).sens
        | .ms2, .trunc => Int.tdiv
            ((s.blk.raw[i]).toInt * sensMg (modeRow s.params.modeTable s.blk.modeSel).sens *
              s.params.gMilli) 1000
        | .ms2, .nearest =>
            let n := (s.blk.raw[i]).toInt * sensMg (modeRow s.params.modeTable s.blk.modeSel).sens *
              s.params.gMilli
            n.sign * ((2 * (n.natAbs : Int) + 1000) / (2 * 1000)))

/-- SCALE does not overflow on what DECODE produces (41_decoder.md R177, with the range of R174 as the
premise, and `G_MILLI` at most the source's 9806), for every ModeTable of R171; a value in mg fits 16
bits. -/
def Obligations.ScaleDoesNotOverflow : Prop :=
  ∀ s : State, s.blk.busy = false →
    (∀ i : Fin 3, (s.blk.raw[i]).toInt.natAbs ≤ 2048) → s.params.gMilli ≤ 9806 →
    ∃ t, exec .scale s = .next t ∧ ∀ i : Fin 3,
      (t.blk.phys[i]).toInt = scaleValue s.params.quant s.params.gMilli
        (modeRow s.params.modeTable s.blk.modeSel).unit
        (sensMg (modeRow s.params.modeTable s.blk.modeSel).sens) (s.blk.raw[i]).toInt ∧
      (t.blk.phys[i]).toInt.natAbs ≤ 80331 ∧
      ((modeRow s.params.modeTable s.blk.modeSel).unit = .mg →
        (t.blk.phys[i]).toInt.natAbs ≤ 8192)

/-- The accuracy of the re-quantisation (41_decoder.md R178), multiplied out, for every `G_MILLI`, 9806
among them: with TRUNC the error is below 1 and toward zero, with NEAREST at most one half, and a tie
goes away from zero (00_scope.md R13); both are odd functions (R176). -/
def Obligations.RequantisationAccuracy : Prop :=
  ∀ (r e : Int) (g : Nat) (k : SensSel), e = r * sensMg k * g →
    (1000 * scaleValue .trunc g .ms2 (sensMg k) r - e).natAbs < 1000 ∧
    (0 ≤ e → 0 ≤ scaleValue .trunc g .ms2 (sensMg k) r ∧
      1000 * scaleValue .trunc g .ms2 (sensMg k) r ≤ e) ∧
    (e ≤ 0 → scaleValue .trunc g .ms2 (sensMg k) r ≤ 0 ∧
      e ≤ 1000 * scaleValue .trunc g .ms2 (sensMg k) r) ∧
    (2 * (1000 * scaleValue .nearest g .ms2 (sensMg k) r - e)).natAbs ≤ 1000 ∧
    (e.natAbs % 1000 = 500 →
      (1000 * scaleValue .nearest g .ms2 (sensMg k) r).natAbs = e.natAbs + 500) ∧
    (∀ q : Quant, scaleValue q g .ms2 (sensMg k) (-r) = -scaleValue q g .ms2 (sensMg k) r)

/-- FRAME (41_decoder.md R180): `HDR`, three axis fields least significant byte first, `FTR`, the length;
the bytes beyond keep their values; nothing else changes. `HDR` and `FTR` are 0xA0 and 0xC0 after
reset. -/
def Obligations.FrameLaysOutTheSamples : Prop :=
  State.reset.params.header = 0xA0 ∧ State.reset.params.footer = 0xC0 ∧
  ∀ (s : State) (w : Nat), s.blk.busy = false →
    w = widthBytes (modeRow s.params.modeTable s.blk.modeSel).width →
    ∃ f : Vector Byte 14,
      exec .frame s = .next { s with blk := { s.blk with
        cmdreg := 0xA0000000, done := true, code := .ok, present := false, ovr := false,
        frame := f, framelen := BitVec.ofNat 4 (2 + 3 * w) } } ∧
      f[0] = s.params.header ∧
      (∀ (i : Fin 3) (j : Nat), j < w →
        f[1 + w * i.val + j]? = some ((s.blk.phys[i]).extractLsb' (8 * j) 8)) ∧
      f[1 + 3 * w]? = some s.params.footer ∧
      ∀ k : Nat, 2 + 3 * w ≤ k → f[k]? = s.blk.frame[k]?

/-- The frame length law (41_decoder.md R185), with `HDR` and `FTR` as parameters whose source values are
0xA0 and 0xC0. -/
def Obligations.FrameLengthLaw : Prop :=
  ∀ s : State, s.blk.busy = false → ∃ t, exec .frame s = .next t ∧
    t.blk.framelen.toNat = 2 + 3 * widthBytes (modeRow s.params.modeTable s.blk.modeSel).width ∧
    (t.blk.framelen.toNat = 8 ∨ t.blk.framelen.toNat = 14) ∧
    t.blk.frame[0] = s.params.header ∧
    t.blk.frame[t.blk.framelen.toNat - 1]? = some s.params.footer ∧
    (s.params = State.reset.params →
      t.blk.frame[0] = 0xA0 ∧ t.blk.frame[t.blk.framelen.toNat - 1]? = some 0xC0)

/-- The lanes of the decoder are independent (41_decoder.md R181): axis `i` of the result depends
only on axis `i` of the input, the mode and the parameters. -/
def Obligations.AxesDoNotInteract : Prop :=
  ∀ (s u : State) (i : Fin 3), s.blk.busy = false → u.blk.busy = false → s.params = u.params →
    s.blk.modeSel = u.blk.modeSel →
    (s.blk.rxbuf[2 * i.val] = u.blk.rxbuf[2 * i.val] →
      s.blk.rxbuf[2 * i.val + 1] = u.blk.rxbuf[2 * i.val + 1] →
      ∃ t v, exec .decode s = .next t ∧ exec .decode u = .next v ∧
        t.blk.raw[i] = v.blk.raw[i]) ∧
    (s.blk.raw[i] = u.blk.raw[i] →
      ∃ t v, exec .scale s = .next t ∧ exec .scale u = .next v ∧
        t.blk.phys[i] = v.blk.phys[i]) ∧
    (s.blk.phys[i] = u.blk.phys[i] → ∀ w : Nat,
      w = widthBytes (modeRow s.params.modeTable s.blk.modeSel).width →
      ∃ t v, exec .frame s = .next t ∧ exec .frame u = .next v ∧
        ∀ j : Nat, j < w → t.blk.frame[1 + w * i.val + j]? = v.blk.frame[1 + w * i.val + j]?)

/-- DECODE, SCALE and FRAME in a row (42_sequences.md R205): in the 32-bit format the field of axis
`i` is the scaled, shifted, composed sample of its two bytes, with no wrap anywhere; in the 16-bit
format the same holds where the unit is mg (41_decoder.md R177, R179). In m/s² `G_MILLI` is at most
the source's 9806. -/
def Obligations.DecodeAllEncodesTheSample : Prop :=
  ∀ (s : State) (i : Fin 3) (row : ModeRow) (v : Int), s.blk.busy = false →
    row = modeRow s.params.modeTable s.blk.modeSel →
    (row.unit = .ms2 → s.params.gMilli ≤ 9806) →
    v = scaleValue s.params.quant s.params.gMilli row.unit (sensMg row.sens)
      (Int.fdiv (BitVec.toInt (s.blk.rxbuf[2 * i.val + 1] ++ s.blk.rxbuf[2 * i.val]))
        (2 ^ shiftPlaces row.shift)) →
    ∃ t1 t2 t3, exec .decode s = .next t1 ∧ exec .scale t1 = .next t2 ∧
      exec .frame t2 = .next t3 ∧
      (row.width = .four → ∃ b0 b1 b2 b3 : Byte,
        t3.blk.frame[1 + 4 * i.val]? = some b0 ∧ t3.blk.frame[2 + 4 * i.val]? = some b1 ∧
        t3.blk.frame[3 + 4 * i.val]? = some b2 ∧ t3.blk.frame[4 + 4 * i.val]? = some b3 ∧
        BitVec.toInt (b3 ++ b2 ++ b1 ++ b0) = v) ∧
      (row.width = .two → row.unit = .mg → ∃ b0 b1 : Byte,
        t3.blk.frame[1 + 2 * i.val]? = some b0 ∧ t3.blk.frame[2 + 2 * i.val]? = some b1 ∧
        BitVec.toInt (b1 ++ b0) = v)

/-! ### The TXC step -/

/-- TXC has no step while `BUSY = 0` (40_transactions.md R130): chosen then, nothing changes. -/
def Obligations.NoTxcStepWhileIdle : Prop :=
  ∀ s : State, s.blk.busy = false → agentStep .txc s = .next s

/-- Phase P_START (40_transactions.md R133), for every TXC command and every answer of the response
set. -/
def Obligations.StartPhase : Prop :=
  ∀ (s : State) (i : Instr) (a : Addr) (r : Response) (e : Env), s.blk.busy = true →
    s.blk.phase = .pStart → s.blk.command = some i → busAddr i = some a →
    answer (.start a .w) s.trace.length s.env = (r, e) →
    (r = .ack → (∃ a', i = .probe a') → agentStep .txc s = .next { s with
      env := e, trace := s.trace ++ [(.start a .w, .ack)],
      blk := { s.blk with present := true, phase := .pStop } }) ∧
    (r = .ack → (∀ a', i ≠ .probe a') → agentStep .txc s = .next { s with
      env := e, trace := s.trace ++ [(.start a .w, .ack)],
      blk := { s.blk with phase := .pOffset } }) ∧
    (r = .nack → agentStep .txc s = .next { s with
      env := e, trace := s.trace ++ [(.start a .w, .nack)],
      blk := { s.blk with pcode := .noack, phase := .pStop } }) ∧
    (r = .timeout → agentStep .txc s = .next { s with
      env := e, trace := s.trace ++ [(.start a .w, .timeout)],
      blk := { s.blk with pcode := .timeout, phase := .pStop } })

/-- Phase P_OFFSET (40_transactions.md R134): RDMULTI alone applies `AUTOINC_MASK`. -/
def Obligations.OffsetPhase : Prop :=
  ∀ (s : State) (i : Instr) (b : Byte) (r : Response) (e : Env), s.blk.busy = true →
    s.blk.phase = .pOffset → s.blk.command = some i →
    ((∃ a, i = .rdreg a b) ∨ (∃ a off n, i = .rdmulti a off n ∧ b = off ||| s.params.autoincMask) ∨
      (∃ a v, i = .wrreg a b v)) →
    answer (.wbyte b) s.trace.length s.env = (r, e) →
    (r = .ack → (∃ a off v, i = .wrreg a off v) → agentStep .txc s = .next { s with
      env := e, trace := s.trace ++ [(.wbyte b, .ack)],
      blk := { s.blk with phase := .pWdata } }) ∧
    (r = .ack → (∀ a off v, i ≠ .wrreg a off v) → agentStep .txc s = .next { s with
      env := e, trace := s.trace ++ [(.wbyte b, .ack)],
      blk := { s.blk with phase := .pRestart } }) ∧
    (r = .nack → agentStep .txc s = .next { s with
      env := e, trace := s.trace ++ [(.wbyte b, .nack)],
      blk := { s.blk with pcode := .noack, phase := .pStop } }) ∧
    (r = .timeout → agentStep .txc s = .next { s with
      env := e, trace := s.trace ++ [(.wbyte b, .timeout)],
      blk := { s.blk with pcode := .timeout, phase := .pStop } })

/-- Phase P_WDATA (40_transactions.md R135). -/
def Obligations.WriteDataPhase : Prop :=
  ∀ (s : State) (a : Addr) (off v : Byte) (r : Response) (e : Env), s.blk.busy = true →
    s.blk.phase = .pWdata → s.blk.command = some (.wrreg a off v) →
    answer (.wbyte v) s.trace.length s.env = (r, e) →
    (r = .ack → agentStep .txc s = .next { s with
      env := e, trace := s.trace ++ [(.wbyte v, .ack)],
      blk := { s.blk with phase := .pStop } }) ∧
    (r = .nack → agentStep .txc s = .next { s with
      env := e, trace := s.trace ++ [(.wbyte v, .nack)],
      blk := { s.blk with pcode := .noack, phase := .pStop } }) ∧
    (r = .timeout → agentStep .txc s = .next { s with
      env := e, trace := s.trace ++ [(.wbyte v, .timeout)],
      blk := { s.blk with pcode := .timeout, phase := .pStop } })

/-- Phase P_RESTART (40_transactions.md R136), for RDREG and RDMULTI. -/
def Obligations.RestartPhase : Prop :=
  ∀ (s : State) (i : Instr) (a : Addr) (r : Response) (e : Env), s.blk.busy = true →
    s.blk.phase = .pRestart → s.blk.command = some i →
    ((∃ off, i = .rdreg a off) ∨ (∃ off n, i = .rdmulti a off n)) →
    answer (.restart a .r) s.trace.length s.env = (r, e) →
    (r = .ack → agentStep .txc s = .next { s with
      env := e, trace := s.trace ++ [(.restart a .r, .ack)],
      blk := { s.blk with phase := .pRdata } }) ∧
    (r = .nack → agentStep .txc s = .next { s with
      env := e, trace := s.trace ++ [(.restart a .r, .nack)],
      blk := { s.blk with pcode := .noack, phase := .pStop } }) ∧
    (r = .timeout → agentStep .txc s = .next { s with
      env := e, trace := s.trace ++ [(.restart a .r, .timeout)],
      blk := { s.blk with pcode := .timeout, phase := .pStop } })

/-- Phase P_RDATA (40_transactions.md R137), with `N` 1 for RDREG and COUNT for RDMULTI: the byte is
stored, the last byte is not acknowledged. -/
def Obligations.ReadDataPhase : Prop :=
  ∀ (s : State) (i : Instr) (n : Nat) (more : Bool) (r : Response) (e : Env), s.blk.busy = true →
    s.blk.phase = .pRdata → s.blk.command = some i →
    ((∃ a off, i = .rdreg a off ∧ n = 1) ∨ (∃ a off c, i = .rdmulti a off c ∧ n = c.toNat)) →
    s.blk.idx.toNat < n → (more = false ↔ s.blk.idx.toNat = n - 1) →
    answer (.rbyte more) s.trace.length s.env = (r, e) →
    (∀ v : Byte, r = .data v → ∃ rx : Vector Byte 8,
      (∀ k : Fin 8, rx[k] = if k.val = s.blk.idx.toNat then v else s.blk.rxbuf[k]) ∧
      agentStep .txc s = .next { s with
        env := e, trace := s.trace ++ [(.rbyte more, .data v)],
        blk := if more then { s.blk with rxbuf := rx, idx := s.blk.idx + 1 }
          else { s.blk with rxbuf := rx, phase := .pStop } }) ∧
    (r = .timeout → agentStep .txc s = .next { s with
      env := e, trace := s.trace ++ [(.rbyte more, .timeout)],
      blk := { s.blk with pcode := .timeout, phase := .pStop } })

/-- Phase P_STOP (40_transactions.md R138): the first failure is reported, a STOP timeout only when
nothing failed before. -/
def Obligations.StopPhase : Prop :=
  ∀ (s : State) (i : Instr) (c : Code) (n : BitVec 4) (r : Response) (e : Env), s.blk.busy = true →
    s.blk.phase = .pStop → s.blk.command = some i → isTxc i = true →
    answer .stop s.trace.length s.env = (r, e) → (r = .done ∨ r = .timeout) →
    c = (if r = .timeout ∧ s.blk.pcode = .ok then .timeout else s.blk.pcode) →
    n = (match c, i with
      | .ok, .rdreg _ _ => 1
      | .ok, .rdmulti _ _ count => count.setWidth 4
      | _, _ => 0) →
    agentStep .txc s = .next { s with
      env := e, trace := s.trace ++ [(.stop, r)],
      blk := { s.blk with code := c, rxcnt := n, done := true, busy := false, phase := .idle } }

/-- A busy block that meets the invariant takes its TXC step, in every environment whose answer is in the
response set, injected or not: it issues the one primitive PHASE names, gets one response of its set,
and the bus trace grows by that pair (40_transactions.md R130; 20_memory.md R74, R92). The oracle and a
reference slave with nothing injected always answer so. -/
def Obligations.BusyBlockIssuesOnePrimitive : Prop :=
  ∀ s : State, s.Inv → (s.env.wellBehaved ∨ s.answersInSet) → s.blk.busy = true →
    ∃ i p r t, s.blk.command = some i ∧ nextPrim s.params i s.blk = some p ∧
      p.allows r = true ∧ agentStep .txc s = .next t ∧ t.trace = s.trace ++ [(p, r)] ∧
      t.host = s.host ∧ t.blk.cmdreg = s.blk.cmdreg ∧ t.blk.ovr = s.blk.ovr ∧
      t.blk.modeSel = s.blk.modeSel ∧ t.blk.raw = s.blk.raw ∧ t.blk.phys = s.blk.phys ∧
      t.blk.frame = s.blk.frame ∧ t.blk.framelen = s.blk.framelen

/-- Only TXC steps touch the bus: a host step and a tick leave the bus trace and the environment as
they are (40_transactions.md R130, 60_exceptions.md R241). -/
def Obligations.OnlyTxcTouchesTheBus : Prop :=
  ∀ (a : Agent) (s t : State), a = .host ∨ a = .tick → agentStep a s = .next t →
    t.trace = s.trace ∧ t.env = s.env

/-! ### Whole commands -/

/-- Every accepted TXC command ends within its bound of TXC steps, PROBE after exactly 2
(40_transactions.md R144), for every environment that answers inside the response sets while the
command runs: the oracle, the reference slave, and the reference slave with injected responses of the
primitives' sets (20_memory.md R92). -/
def Obligations.CommandEndsWithinItsBound : Prop :=
  ∀ (i : Instr) (s : State), isTxc i = true → i.wellFormed = true → s.blk.busy = false →
    (s.env.wellBehaved ∨ s.answersDuring i) →
    (∃ k t, 1 ≤ k ∧ k ≤ stepBound i ∧ runCommand i k s = .next t ∧ t.blk.busy = false ∧
      t.blk.done = true ∧ t.blk.phase = .idle ∧ t.blk.code ≠ .illegal ∧
      ∀ j u, j < k → runCommand i j s = .next u → u.blk.busy = true) ∧
    stepBound i ≤ 12 ∧
    (∀ a, i = .probe a → ∃ u, runCommand i 1 s = .next u ∧ u.blk.busy = true)

/-- PROBE at the reference slave (40_transactions.md R149, R140): PRESENT is 1 exactly when the
address is in Dev. -/
def Obligations.ProbeFindsExactlyTheDevices : Prop :=
  ∀ (a : Addr) (s : State), s.blk.busy = false → s.env.plainSlave →
    ∃ t, runCommand (.probe a) 2 s = .next t ∧ t.blk.busy = false ∧ t.blk.done = true ∧
      (t.blk.present = true ↔ a ∈ s.env.dev) ∧
      t.blk.code = (if a ∈ s.env.dev then .ok else .noack) ∧ t.blk.rxcnt = 0 ∧
      t.blk.rxbuf = s.blk.rxbuf ∧
      t.trace = s.trace ++ [(.start a .w, if a ∈ s.env.dev then .ack else .nack), (.stop, .done)]

/-- RDREG at a present reference slave (40_transactions.md R141, 20_memory.md R91): five primitives,
`RXBUF[0]` is the register, `RXCNT` 1. -/
def Obligations.RdregReadsTheSlaveRegister : Prop :=
  ∀ (a : Addr) (off : Byte) (s : State), s.blk.busy = false → s.env.plainSlave → a ∈ s.env.dev →
    s.env.canonical →
    ∃ t, runCommand (.rdreg a off) 5 s = .next t ∧ t.blk.busy = false ∧ t.blk.done = true ∧
      t.blk.code = .ok ∧ t.blk.rxcnt = 1 ∧ t.blk.rxbuf[0] = s.env.slaveReg a off ∧
      (∀ k : Fin 8, k ≠ 0 → t.blk.rxbuf[k] = s.blk.rxbuf[k]) ∧
      t.env.regs = s.env.regs ∧ t.env.pointer a = off + 1 ∧
      t.trace = s.trace ++ [(.start a .w, .ack), (.wbyte off, .ack), (.restart a .r, .ack),
        (.rbyte false, .data (s.env.slaveReg a off)), (.stop, .done)]

/-- RDMULTI at a present reference slave (40_transactions.md R142, 20_memory.md R87, R91): one
transaction, the bytes of consecutive registers in order, the bytes beyond COUNT not written. -/
def Obligations.RdmultiReadsConsecutiveRegisters : Prop :=
  ∀ (a : Addr) (off count m : Byte) (s : State), countInRange count = true → s.blk.busy = false →
    s.env.plainSlave → a ∈ s.env.dev → s.env.canonical → m = off ||| s.params.autoincMask →
    ∃ t, runCommand (.rdmulti a off count) (count.toNat + 4) s = .next t ∧ t.blk.busy = false ∧
      t.blk.done = true ∧ t.blk.code = .ok ∧ t.blk.rxcnt.toNat = count.toNat ∧
      (∀ k : Fin 8, t.blk.rxbuf[k] =
        if k.val < count.toNat then s.env.slaveReg a (m + BitVec.ofNat 8 k.val)
        else s.blk.rxbuf[k]) ∧
      t.env.regs = s.env.regs ∧
      t.trace = s.trace ++ [(.start a .w, .ack), (.wbyte m, .ack), (.restart a .r, .ack)] ++
        ((List.range count.toNat).map fun k =>
          (Prim.rbyte (decide (k + 1 ≠ count.toNat)),
            Response.data (s.env.slaveReg a (m + BitVec.ofNat 8 k)))) ++ [(.stop, .done)]

/-- WRREG at a present reference slave (40_transactions.md R143, 20_memory.md R91): the register
takes the value unless it is read-only, every other register keeps its own, RXBUF is untouched. -/
def Obligations.WrregStoresTheValue : Prop :=
  ∀ (a : Addr) (off val : Byte) (s : State), s.blk.busy = false → s.env.plainSlave →
    a ∈ s.env.dev → s.env.canonical →
    ∃ t, runCommand (.wrreg a off val) 4 s = .next t ∧ t.blk.busy = false ∧ t.blk.done = true ∧
      t.blk.code = .ok ∧ t.blk.rxcnt = 0 ∧ t.blk.rxbuf = s.blk.rxbuf ∧
      ((a, off) ∉ s.env.ro → t.env.slaveReg a off = val) ∧
      ((a, off) ∈ s.env.ro → t.env.slaveReg a off = s.env.slaveReg a off) ∧
      (∀ (a' : Addr) (off' : Byte), (a', off') ≠ (a, off) →
        t.env.slaveReg a' off' = s.env.slaveReg a' off') ∧
      t.trace = s.trace ++ [(.start a .w, .ack), (.wbyte off, .ack), (.wbyte val, .ack),
        (.stop, .done)]

/-- The write-then-read-back round trip at the reference slave (40_transactions.md R148), both
forms. -/
def Obligations.WriteThenReadBackRoundTrip : Prop :=
  ∀ (a : Addr) (off v : Byte) (s : State), s.blk.busy = false → s.env.plainSlave →
    a ∈ s.env.dev → (a, off) ∉ s.env.ro → s.env.canonical →
    (∃ t1 t2 t3, runCommand (.rdreg a off) 5 s = .next t1 ∧
      runCommand (.wrreg a off t1.blk.rxbuf[0]) 4 t1 = .next t2 ∧
      runCommand (.rdreg a off) 5 t2 = .next t3 ∧
      t1.blk.done = true ∧ t2.blk.done = true ∧ t3.blk.done = true ∧
      t1.blk.code = .ok ∧ t2.blk.code = .ok ∧ t3.blk.code = .ok ∧
      t3.blk.rxbuf[0] = t1.blk.rxbuf[0]) ∧
    (∃ t1 t2, runCommand (.wrreg a off v) 4 s = .next t1 ∧
      runCommand (.rdreg a off) 5 t1 = .next t2 ∧ t2.blk.rxbuf[0] = v)

/-! ### Invariants -/

/-- Every step of every agent keeps the invariant of the block's sequencer and the canonical form of
the slave register space (10_state.md R39 to R48; 40_transactions.md R139). -/
def Obligations.StepKeepsInvariant : Prop :=
  ∀ s t : State, s.Inv → step s = .next t → t.Inv

/-- Every step keeps the shape of the bus trace: each START opens a transaction that exactly one STOP
closes before the next START, and every other primitive stands inside one (40_transactions.md
R145). -/
def Obligations.StepKeepsBusBracketed : Prop :=
  ∀ s t : State, s.Inv → s.busBracketed → step s = .next t → t.busBracketed

/-- The state after reset meets both invariants. -/
def Obligations.ResetMeetsInvariants : Prop :=
  State.reset.Inv ∧ State.reset.busBracketed

/-- A block that meets the invariant is never stuck: no step faults (40_transactions.md R144: the
block has no state in which it waits for ever). -/
def Obligations.NoStepFaults : Prop :=
  ∀ (s : State) (f : Fault), s.Inv → step s ≠ .fault f

/-- The parameters are fixed for a run (10_state.md R31). That they stand in State is the model's
choice, log 4. -/
def Obligations.StepKeepsParameters : Prop :=
  ∀ s t : State, step s = .next t → t.params = s.params

/-- Only a reset and DECODE write RAW, only a reset and SCALE write PHYS, only a reset and FRAME write
FRAME and FRAMELEN (10_state.md R34, R35, R36), over all agents and all host accesses. -/
def Obligations.DecoderRegistersHaveOneWriter : Prop :=
  ∀ (a : Agent) (s t : State), a ≠ .reset → agentStep a s = .next t →
    (t.blk.raw ≠ s.blk.raw →
      a = .host ∧ s.blk.busy = false ∧ t.blk.cmdreg = 0x80000000 ∧ t.blk.done = true) ∧
    (t.blk.phys ≠ s.blk.phys →
      a = .host ∧ s.blk.busy = false ∧ t.blk.cmdreg = 0x90000000 ∧ t.blk.done = true) ∧
    ((t.blk.frame ≠ s.blk.frame ∨ t.blk.framelen ≠ s.blk.framelen) →
      a = .host ∧ s.blk.busy = false ∧ t.blk.cmdreg = 0xA0000000 ∧ t.blk.done = true)

/-- While `BUSY = 1` no host step and no tick changes the command in progress: CMDREG, PHASE, IDX,
PCODE, PRESENT and RXBUF stay (20_memory.md R97, 60_exceptions.md R234). -/
def Obligations.CommandInProgressIsUndisturbed : Prop :=
  ∀ (a : Agent) (s t : State), a = .host ∨ a = .tick → s.blk.busy = true →
    agentStep a s = .next t →
    t.blk.cmdreg = s.blk.cmdreg ∧ t.blk.phase = s.blk.phase ∧ t.blk.idx = s.blk.idx ∧
    t.blk.pcode = s.blk.pcode ∧ t.blk.present = s.blk.present ∧ t.blk.rxbuf = s.blk.rxbuf ∧
    t.blk.busy = true

/-! ### The host window -/

/-- The layout of STAT (10_state.md R39). -/
def Obligations.StatWordLayout : Prop :=
  ∀ b : Block,
    b.stat.getLsbD 0 = b.busy ∧ b.stat.getLsbD 1 = b.done ∧
    (b.stat.extractLsb' 2 2).toNat =
      (match b.code with | .ok => 0 | .noack => 1 | .timeout => 2 | .illegal => 3) ∧
    b.stat.getLsbD 4 = b.present ∧ b.stat.getLsbD 5 = b.ovr ∧ b.stat.extractLsb' 6 2 = 0 ∧
    b.stat.extractLsb' 8 4 = b.rxcnt ∧ b.stat.extractLsb' 12 20 = 0

/-- What a host read returns at every register offset of the window (20_memory.md R71, R76;
10_state.md R45); the read changes nothing but the model's record of what was read. -/
def Obligations.WindowReads : Prop :=
  ∀ s : State,
    hostRead 0x00 4 s = .next (s.logRead 0x00 s.blk.cmdreg) ∧
    hostRead 0x04 4 s = .next (s.logRead 0x04 s.blk.stat) ∧
    hostRead 0x08 4 s = .next (s.logRead 0x08 (if s.blk.modeSel then 1 else 0)) ∧
    (∀ i : Fin 8, hostRead (0x10 + 4 * i.val) 4 s =
      .next (s.logRead (0x10 + 4 * i.val) ((s.blk.rxbuf[i]).zeroExtend 32))) ∧
    (∀ i : Fin 3, hostRead (0x30 + 4 * i.val) 4 s =
      .next (s.logRead (0x30 + 4 * i.val) ((s.blk.raw[i]).signExtend 32))) ∧
    (∀ i : Fin 3, hostRead (0x40 + 4 * i.val) 4 s =
      .next (s.logRead (0x40 + 4 * i.val) s.blk.phys[i])) ∧
    hostRead 0x50 4 s = .next (s.logRead 0x50 (s.blk.framelen.zeroExtend 32)) ∧
    (∀ i : Fin 14, hostRead (0x60 + 4 * i.val) 4 s =
      .next (s.logRead (0x60 + 4 * i.val) ((s.blk.frame[i]).zeroExtend 32)))

/-- What a host write does at every register offset but CMD (10_state.md R45, R43; 20_memory.md
R77): MODE stores bit 0 at any time, RXBUF stores bits 7:0 while `BUSY = 0`, the others ignore it. -/
def Obligations.WindowWrites : Prop :=
  ∀ (v : Word) (s : State),
    hostWrite 0x04 4 v s = .next s ∧
    hostWrite 0x08 4 v s = .next { s with blk := { s.blk with modeSel := v.getLsbD 0 } } ∧
    (∀ i : Fin 8, s.blk.busy = false → ∃ rx : Vector Byte 8,
      hostWrite (0x10 + 4 * i.val) 4 v s = .next { s with blk := { s.blk with rxbuf := rx } } ∧
      ∀ k : Fin 8, rx[k] = if k = i then v.extractLsb' 0 8 else s.blk.rxbuf[k]) ∧
    (∀ i : Fin 3, hostWrite (0x30 + 4 * i.val) 4 v s = .next s ∧
      hostWrite (0x40 + 4 * i.val) 4 v s = .next s) ∧
    hostWrite 0x50 4 v s = .next s ∧
    (∀ i : Fin 14, hostWrite (0x60 + 4 * i.val) 4 v s = .next s)

/-- A reserved offset reads 0 and ignores writes (20_memory.md R78, with the reserved offsets of R71).
An offset above 0xFF is not the block's: that the access is refused is the model's choice, log 11. -/
def Obligations.ReservedOffsetsReadZero : Prop :=
  (∀ (off : Nat) (v : Word) (s : State), off % 4 = 0 →
    (off = 0x0C ∨ off = 0x3C ∨ off = 0x4C ∨ (0x54 ≤ off ∧ off ≤ 0x5C) ∨
      (0x98 ≤ off ∧ off ≤ 0xFC)) →
    hostRead off 4 s = .next (s.logRead off 0) ∧ hostWrite off 4 v s = .next s) ∧
  (∀ (off : Nat) (v : Word) (s : State), 0xFF < off →
    hostRead off 4 s = .refused .outsideWindow ∧ hostWrite off 4 v s = .refused .outsideWindow)

/-- An access of another width, or at an offset that is no multiple of 4, is refused: no step
(20_memory.md R79). -/
def Obligations.UndefinedAccessesAreRefused : Prop :=
  ∀ (off width : Nat) (v : Word) (s : State), width ≠ 4 ∨ off % 4 ≠ 0 →
    ∃ r : Refusal, hostRead off width s = .refused r ∧ hostWrite off width v s = .refused r

/-! ### Agents, reset, host sequences -/

/-- A step runs the decoded instruction: when the host is scheduled and its program submits a word
that decodes to `i`, the step is `exec i` on the state with both queue heads taken; an illegal word
has the effect of a write of CMD. A word placed by `placeWord` is run by the very next step. How a
word reaches the host is the model's choice, log 6. -/
def Obligations.StepRunsTheSubmittedInstruction : Prop :=
  (∀ (s : State) (w : Word) (i : Instr) (rest : List Agent) (more : List Directive),
    decodeWord w = .ok i → s.sched = .host :: rest → s.host.prog = .submit w :: more →
    step s = exec i { s with sched := rest, host := { s.host with prog := more } }) ∧
  (∀ (s : State) (w : Word) (i : Instr), decodeWord w = .ok i → step (s.placeWord w) = exec i s) ∧
  (∀ (s : State) (w : Word), step (s.placeWord w) = hostWrite 0x00 4 w s) ∧
  (∀ (s : State) (a : Agent) (rest : List Agent), s.sched = a :: rest →
    step s = agentStep a { s with sched := rest })

/-- The TICK step sets PEND whatever it was and touches nothing else (60_exceptions.md R241, R243);
before the tick source is started there is none (the model's choice, log 14). -/
def Obligations.TickSetsPend : Prop :=
  ∀ s : State,
    (s.host.tickOn = true →
      agentStep .tick s = .next { s with host := { s.host with pend := true } } ∧
      (s.host.pend = true → agentStep .tick s = .next s)) ∧
    (s.host.tickOn = false → agentStep .tick s = .next s)

/-- Reset, in any state and also while `BUSY = 1`, answers a next state: the environment and the
parameters are untouched, and every field with a value in 10_state.md R52 takes it, the bus trace
empty, so no primitive is issued (70_reset_and_hazards.md R260 to R262). State.reset has those values
too. That reset is a step of an agent is the model's choice, log 13. -/
def Obligations.ResetGivesTheResetValues : Prop :=
  ∀ s : State, ∃ t, agentStep .reset s = .next t ∧ t.env = s.env ∧ t.params = s.params ∧
    ∀ u : State, u = t ∨ u = State.reset →
      u.blk.cmdreg = 0 ∧ u.blk.busy = false ∧ u.blk.done = false ∧ u.blk.present = false ∧
      u.blk.ovr = false ∧ u.blk.code = .ok ∧ u.blk.rxcnt = 0 ∧ u.blk.modeSel = false ∧
      u.blk.phase = .idle ∧ u.blk.idx = 0 ∧ u.blk.pcode = .ok ∧ u.blk.framelen = 0 ∧
      u.host.pend = false ∧ u.hstate = .idle ∧ u.trace = []

/-- The parameters have the values of 00_scope.md R8 after reset; the unstated ones are free values and
no statement fixes them. -/
def Obligations.ParametersHaveTheirSourceValues : Prop :=
  ∀ p : Params, p = State.reset.params →
    p.header = 0xA0 ∧ p.footer = 0xC0 ∧ p.gMilli = 9806 ∧ p.tickPeriodMs = 10 ∧
    p.zyxdaBit.val = 3 ∧ p.zyxorBit.val = 7 ∧ p.devAddr = 0x18 ∧ p.autoincMask = 0x00 ∧
    p.quant = .trunc ∧ modeRow p.modeTable false = ⟨.six, .four, .mg, .two⟩ ∧
    modeRow p.modeTable true = ⟨.four, .two, .ms2, .four⟩

/-- What the Sampling Controller writes to CMD on each command line of its sequences, and how it waits
(42_sequences.md R200, R201, R203, R207): PROBE a in SCAN, RDREG and WRREG of the control registers at
DEV_ADDR in CONFIGURE, RDREG of STATUS, RDMULTI of six bytes at OFF_OUT, DECODE, SCALE, FRAME. The line
submits the command by one write of CMD, then reads STAT until `BUSY = 0`. -/
def Obligations.ControllerSubmitsItsCommands : Prop :=
  ∀ (s : State) (i : Instr) (line : CmdPoint → CtlPoint), s.host.prog = [] →
    ((∃ a, i = .probe a ∧ line = .scan a) ∨
      (i = .rdreg s.params.devAddr s.params.offCtrl1 ∧ line = .cfgRead .ctrl1) ∨
      (i = .rdreg s.params.devAddr s.params.offCtrl4 ∧ line = .cfgRead .ctrl4) ∨
      (i = .wrreg s.params.devAddr s.params.offCtrl1 s.params.ctrl1Target ∧
        line = .cfgWrite .ctrl1) ∨
      (i = .wrreg s.params.devAddr s.params.offCtrl4 s.params.ctrl4Target ∧
        line = .cfgWrite .ctrl4) ∨
      (i = .rdreg s.params.devAddr s.params.offStatus ∧ line = .status) ∨
      (i = .rdmulti s.params.devAddr s.params.offOut 6 ∧ line = .acquire) ∨
      (i = .decode ∧ line = .decode) ∨ (i = .scale ∧ line = .scale) ∨
      (i = .frame ∧ line = .frame)) →
    (s.host.ctl = line .submit →
      agentStep .host s =
        hostWrite 0x00 4 (encode i) { s with host := { s.host with ctl := line .wait } } ∧
      agentStep .host s = exec i { s with host := { s.host with ctl := line .wait } }) ∧
    (s.host.ctl = line .wait →
      agentStep .host s = .next { s with host := { s.host with
        ctl := if s.blk.busy then line .wait else line .stat
        reads := s.host.reads ++ [(0x04, s.blk.stat)] } })

/-- Boot steps (d) and (e) (70_reset_and_hazards.md R263): SETMODE of the mode that matches the targets,
then the tick source is started and the loop entered in Idle. -/
def Obligations.BootSetsTheModeThenStartsTheTick : Prop :=
  (∀ s : State, s.host.prog = [] → s.host.ctl = .setMode →
    agentStep .host s = .next { s with
      host := { s.host with ctl := .startTick }
      blk := { s.blk with modeSel := s.params.bootMode } }) ∧
  (∀ s : State, s.host.prog = [] → s.host.ctl = .startTick →
    agentStep .host s = .next { s with host := { s.host with tickOn := true, ctl := .idle } })

/-- SCAN reports a device exactly when PRESENT is 1, the scan result going to the byte sink as one
diagnostic string (42_sequences.md R202, 60_exceptions.md R251), and goes on to the next address, after
127 to CONFIGURE (42_sequences.md R201). That the report is made in the step of the STAT read is the
model's choice, log 15. -/
def Obligations.ScanReportsThePresent : Prop :=
  ∀ (s : State) (a : Addr), s.host.prog = [] → s.host.ctl = .scan a .stat →
    ∃ t, agentStep .host s = .next t ∧ t.blk = s.blk ∧
      t.host.reports = (if s.blk.present then s.host.reports ++ [.devicePresent a]
        else s.host.reports) ∧
      t.host.sink = (if s.blk.present then s.host.sink ++ [.text (.devicePresent a)]
        else s.host.sink) ∧
      t.host.ctl = (if a = 127 then .cfgRead .ctrl1 .submit else .scan (a + 1) .submit)

/-- CONFIGURE at each of its branches (42_sequences.md R203), for both control registers: a failed read
is reported once and the next register follows, with no write; a good read leads to the comparison; the
write is made only when the byte differs from its target; a write is reported as written or as failed,
and the next register follows. After CTRL4 comes SETMODE. A write confirmation is also sent to the byte
sink as a diagnostic string (R202; 60_exceptions.md R251); that a failure sends it nothing here is the
model's choice, log 26, and so is that a report is made in the step of the STAT read, log 15. -/
def Obligations.ConfigureWritesOnlyOnDifference : Prop :=
  ∀ (s : State) (c : CtrlReg) (after : CtlPoint), s.host.prog = [] →
    after = (if c = .ctrl1 then .cfgRead .ctrl4 .submit else .setMode) →
    (s.host.ctl = .cfgRead c .stat →
      ∃ t, agentStep .host s = .next t ∧ t.blk = s.blk ∧
        t.host.sink = s.host.sink ∧
        (s.blk.code ≠ .ok → t.host.ctl = after ∧
          t.host.reports = s.host.reports ++ [.readFailed c s.blk.code]) ∧
        (s.blk.code = .ok → t.host.ctl = .cfgByte c ∧ t.host.reports = s.host.reports)) ∧
    (s.host.ctl = .cfgByte c →
      ∃ t, agentStep .host s = .next t ∧ t.blk = s.blk ∧ t.host.reports = s.host.reports ∧
        t.host.sink = s.host.sink ∧ t.host.ctl =
          (if s.blk.rxbuf[0] = (if c = .ctrl1 then s.params.ctrl1Target else s.params.ctrl4Target)
          then after else .cfgWrite c .submit)) ∧
    (s.host.ctl = .cfgWrite c .stat →
      ∃ t, agentStep .host s = .next t ∧ t.blk = s.blk ∧ t.host.ctl = after ∧
        t.host.reports = s.host.reports ++
          [if s.blk.code = .ok then .written c else .writeFailed c s.blk.code] ∧
        t.host.sink = (if s.blk.code = .ok then s.host.sink ++ [.text (.written c)]
          else s.host.sink))

/-- StatusCheck goes on to Acquire exactly when the bit ZYXDA_BIT of STATUS, 3 after reset, is 1; no
other bit is tested, bit 7 among them (42_sequences.md R207, R208). Idle goes on exactly when PEND is 1, and submits nothing. -/
def Obligations.OnlyZyxdaGatesTheCycle : Prop :=
  State.reset.params.zyxdaBit.val = 3 ∧
  (∀ s : State, s.host.prog = [] → s.host.ctl = .statusByte →
    ∃ t, agentStep .host s = .next t ∧ t.blk = s.blk ∧ t.host.pend = s.host.pend ∧
      t.host.reports = s.host.reports ∧
      t.host.ctl = (if (s.blk.rxbuf[0]).getLsbD s.params.zyxdaBit.val then .acquire .submit
        else .clear .statusCheck)) ∧
  (∀ s : State, s.host.prog = [] → s.host.ctl = .idle →
    ∃ t, agentStep .host s = .next t ∧ t.blk = s.blk ∧
      t.host.ctl = if s.host.pend then .status .submit else .idle)

/-- A bus command of the cycle that failed: one report with its code, nothing sent, PEND cleared and
back to Idle in the next host step; DECODE is not submitted (42_sequences.md R207, R209). That this
takes two host steps, the report being made in that of the STAT read, is the model's choice, log 15. -/
def Obligations.FailedCycleReportsOnceAndSendsNothing : Prop :=
  ∀ s : State, s.host.prog = [] →
    s.host.ctl = .acquire .stat ∨ s.host.ctl = .status .stat → s.blk.code ≠ .ok →
    ∃ t, hostSteps 2 s = .next t ∧ t.host.reports = s.host.reports ++ [.busError s.blk.code] ∧
      t.host.sink = s.host.sink ∧ t.host.pend = false ∧ t.host.ctl = .idle ∧ t.blk = s.blk

/-- The success path of the cycle (42_sequences.md R207): a STATUS read that ended with CODE 0 leads to
the test of its byte, a multi-read that ended with CODE 0 to DECODE, then SCALE, then FRAME, then the
read of FRAMELEN; no report, nothing sent, PEND as it was. -/
def Obligations.SuccessfulCommandsCarryTheCycleOn : Prop :=
  ∀ (s : State) (c c' : CtlPoint), s.host.prog = [] → s.host.ctl = c →
    ((c = .status .stat ∧ c' = .statusByte ∧ s.blk.code = .ok) ∨
      (c = .acquire .stat ∧ c' = .decode .submit ∧ s.blk.code = .ok) ∨
      (c = .decode .stat ∧ c' = .scale .submit) ∨ (c = .scale .stat ∧ c' = .frame .submit) ∨
      (c = .frame .stat ∧ c' = .frameLen)) →
    ∃ t, agentStep .host s = .next t ∧ t.blk = s.blk ∧ t.host.ctl = c' ∧
      t.host.reports = s.host.reports ∧ t.host.sink = s.host.sink ∧ t.host.pend = s.host.pend

/-- Emit reads FRAMELEN, then exactly the bytes `FRAME[0..FRAMELEN-1]`, and hands them to the byte
sink as one write; the host step after that clears PEND and is back at Idle (42_sequences.md R207,
60_exceptions.md R251). That the hand-over is a host step of its own is the model's choice, log 15. -/
def Obligations.EmitSendsTheFrameOnce : Prop :=
  ∀ (s : State) (n : Nat), s.host.prog = [] → s.host.ctl = .frameLen →
    n = s.blk.framelen.toNat → n ≤ 14 →
    ∃ t u, hostSteps (n + 2) s = .next t ∧ t.blk = s.blk ∧
      t.host.sink = s.host.sink ++ [.frame (s.blk.frame.toList.take n)] ∧ t.host.pend = s.host.pend ∧
      t.host.reports = s.host.reports ∧ hostSteps (n + 3) s = .next u ∧ u.blk = s.blk ∧
      u.host.sink = t.host.sink ∧ u.host.pend = false ∧ u.host.ctl = .idle ∧
      u.host.reports = s.host.reports
end

