-- ==== Sys2Proof/Laws/Decode.lean ====
section
/-! SUPPORT. The fields of a packed word, a word from its fields, and what a decoded instruction
satisfies. -/

namespace Sys2Proof

@[simp] theorem fieldOp_packWord (op : BitVec 4) (a : Addr) (off arg : Byte) :
    fieldOp (packWord op a off arg) = op := by
  ext i h
  simp [fieldOp, packWord]
  grind

@[simp] theorem fieldRsv_packWord (op : BitVec 4) (a : Addr) (off arg : Byte) :
    fieldRsv (packWord op a off arg) = 0 := by
  ext i h
  simp [fieldRsv, packWord]
  grind

@[simp] theorem fieldA_packWord (op : BitVec 4) (a : Addr) (off arg : Byte) :
    fieldA (packWord op a off arg) = a := by
  ext i h
  simp [fieldA, packWord]
  grind

@[simp] theorem fieldOff_packWord (op : BitVec 4) (a : Addr) (off arg : Byte) :
    fieldOff (packWord op a off arg) = off := by
  ext i h
  simp [fieldOff, packWord]
  grind

@[simp] theorem fieldArg_packWord (op : BitVec 4) (a : Addr) (off arg : Byte) :
    fieldArg (packWord op a off arg) = arg := by
  ext i h
  simp [fieldArg, packWord]
  grind

/-- A word with `RSV` zero is packed from its own fields. -/
theorem packWord_fields (w : Word) (h : fieldRsv w = 0) :
    packWord (fieldOp w) (fieldA w) (fieldOff w) (fieldArg w) = w := by
  have hr : ∀ i, i < 5 → w.getLsbD (23 + i) = false := by
    intro i hi
    have := congrArg (fun v => BitVec.getLsbD v i) h
    simpa [fieldRsv, hi] using this
  ext i hi
  simp only [packWord, fieldOp, fieldA, fieldOff, fieldArg]
  have := hr (i - 23)
  grind

end Sys2Proof
end

