-- ==== Sys2Proof/Laws/Memory.lean ====
section
/-! SUPPORT. The slave register space: a read after a write to the same key gives the byte, a write
leaves every other key alone, and every operation keeps the canonical form. -/

namespace Sys2Proof.Machine

@[simp] theorem Memory.read_nil (a : Nat) : Memory.read [] a = blankByte := rfl

/-- A key that no cell has reads as an unlisted one. -/
theorem Memory.read_unlisted (m : Memory) (a : Nat) (h : ∀ c ∈ m, c.1 ≠ a) :
    Memory.read m a = blankByte := by
  induction m with
  | nil => rfl
  | cons c m ih =>
    have hc : c.1 ≠ a := h c (by simp)
    simp only [Memory.read, if_neg hc]
    exact ih fun d hd => h d (List.mem_cons_of_mem _ hd)

/-- The cells of `Memory.cons` are the new one and the old ones. -/
theorem Memory.mem_cons (a : Nat) (v : Byte) (m : Memory) (c : Host.Cell)
    (h : c ∈ Memory.cons a v m) : c.1 = a ∨ c ∈ m := by
  unfold Memory.cons at h
  split at h <;> grind

/-- The cells after a write have the written key or a key of an old cell. -/
theorem Memory.mem_write (m : Memory) (a : Nat) (v : Byte) (c : Host.Cell)
    (h : c ∈ Memory.write m a v) : c.1 = a ∨ c ∈ m := by
  induction m with
  | nil => exact Memory.mem_cons a v [] c h
  | cons d m ih =>
    simp only [Memory.write] at h
    split at h
    · exact Memory.mem_cons a v _ c h
    · split at h
      · rcases Memory.mem_cons a v _ c h with h | h <;> simp [h]
      · rcases List.mem_cons.mp h with h | h
        · simp [h]
        · rcases ih h with h | h <;> simp [h]

/-- `Memory.cons` in front of higher keys keeps the canonical form. -/
theorem Memory.wf_cons (a : Nat) (v : Byte) (m : Memory) (h : Memory.wf m)
    (hlow : ∀ c ∈ m, a < c.1) : Memory.wf (Memory.cons a v m) := by
  unfold Memory.cons
  split
  · exact h
  · rename_i hv
    refine ⟨List.pairwise_cons.mpr ⟨hlow, h.1⟩, ?_⟩
    intro c hc
    rcases List.mem_cons.mp hc with rfl | hc
    · exact hv
    · exact h.2 c hc

/-- A write keeps the canonical form. -/
theorem Memory.wf_write (m : Memory) (a : Nat) (v : Byte) (h : Memory.wf m) :
    Memory.wf (Memory.write m a v) := by
  induction m with
  | nil => exact Memory.wf_cons a v [] h (by simp)
  | cons d m ih =>
    obtain ⟨hp, hd⟩ := h
    obtain ⟨hlow, hp'⟩ := List.pairwise_cons.mp hp
    have hm : Memory.wf m := ⟨hp', fun c hc => hd c (List.mem_cons_of_mem _ hc)⟩
    simp only [Memory.write]
    split
    · refine Memory.wf_cons a v _ ⟨hp, hd⟩ ?_
      intro c hc
      rcases List.mem_cons.mp hc with rfl | hc
      · assumption
      · have := hlow c hc
        omega
    · split
      · rename_i he
        exact Memory.wf_cons a v m hm (fun c hc => by have := hlow c hc; omega)
      · have hw := ih hm
        refine ⟨List.pairwise_cons.mpr ⟨?_, hw.1⟩, ?_⟩
        · intro c hc
          rcases Memory.mem_write m a v c hc with h | h
          · show d.1 < c.1
            omega
          · exact hlow c h
        · intro c hc
          rcases List.mem_cons.mp hc with rfl | hc
          · exact hd _ (by simp)
          · exact hw.2 c hc

/-- What `Memory.cons` reads as, in front of cells with higher keys. -/
theorem Memory.read_cons (a : Nat) (v : Byte) (m : Memory) (hlow : ∀ c ∈ m, a < c.1) (b : Nat) :
    Memory.read (Memory.cons a v m) b = if a = b then v else Memory.read m b := by
  unfold Memory.cons
  by_cases hv : v = blankByte
  · rw [if_pos hv]
    split
    · subst hv
      exact Memory.read_unlisted m b fun c hc => by have := hlow c hc; omega
    · rfl
  · rw [if_neg hv]
    rfl

/-- A read after a write: the written byte at its key, the old byte everywhere else. -/
theorem Memory.read_write (m : Memory) (a : Nat) (v : Byte) (h : Memory.wf m) (b : Nat) :
    Memory.read (Memory.write m a v) b = if a = b then v else Memory.read m b := by
  induction m with
  | nil => exact Memory.read_cons a v [] (by simp) b
  | cons d m ih =>
    obtain ⟨hp, hd⟩ := h
    obtain ⟨hlow, hp'⟩ := List.pairwise_cons.mp hp
    have hm : Memory.wf m := ⟨hp', fun c hc => hd c (List.mem_cons_of_mem _ hc)⟩
    simp only [Memory.write]
    split
    · refine Memory.read_cons a v _ ?_ b
      intro c hc
      rcases List.mem_cons.mp hc with rfl | hc
      · assumption
      · have := hlow c hc
        omega
    · split
      · rename_i he
        rw [Memory.read_cons a v m (fun c hc => by have := hlow c hc; omega) b]
        simp only [Memory.read]
        split
        · rfl
        · rw [if_neg (by omega)]
      · have hi := ih hm
        simp only [Memory.read, hi]
        split <;> split <;> first | rfl | omega

/-- Two registers of the slave register space have the same key only when they are the same. -/
theorem slaveKey_inj (a a' : Addr) (o o' : Byte) (h : slaveKey a o = slaveKey a' o') :
    a = a' ∧ o = o' := by
  unfold slaveKey at h
  have h1 := o.isLt
  have h2 := o'.isLt
  exact ⟨BitVec.eq_of_toNat_eq (by omega), BitVec.eq_of_toNat_eq (by omega)⟩

end Sys2Proof.Machine
end

