-- ==== Sys2Proof/Laws/State.lean ====
section
/-! SUPPORT. What each update of the state leaves in each field: one lemma per field and update, true
by definition, so that no proof unfolds a record update. -/

namespace Sys2Proof.Machine

/-! ### Block.latch -/

@[simp] theorem Block.latch_cmdreg (b : Block) (w : Word) : (b.latch w).cmdreg = w := rfl
@[simp] theorem Block.latch_busy (b : Block) (w : Word) : (b.latch w).busy = b.busy := rfl
@[simp] theorem Block.latch_done (b : Block) (w : Word) : (b.latch w).done = false := rfl
@[simp] theorem Block.latch_code (b : Block) (w : Word) : (b.latch w).code = .ok := rfl
@[simp] theorem Block.latch_present (b : Block) (w : Word) : (b.latch w).present = false := rfl
@[simp] theorem Block.latch_ovr (b : Block) (w : Word) : (b.latch w).ovr = false := rfl
@[simp] theorem Block.latch_rxcnt (b : Block) (w : Word) : (b.latch w).rxcnt = b.rxcnt := rfl
@[simp] theorem Block.latch_modeSel (b : Block) (w : Word) : (b.latch w).modeSel = b.modeSel := rfl
@[simp] theorem Block.latch_rxbuf (b : Block) (w : Word) : (b.latch w).rxbuf = b.rxbuf := rfl
@[simp] theorem Block.latch_raw (b : Block) (w : Word) : (b.latch w).raw = b.raw := rfl
@[simp] theorem Block.latch_phys (b : Block) (w : Word) : (b.latch w).phys = b.phys := rfl
@[simp] theorem Block.latch_framelen (b : Block) (w : Word) : (b.latch w).framelen = b.framelen := rfl
@[simp] theorem Block.latch_frame (b : Block) (w : Word) : (b.latch w).frame = b.frame := rfl
@[simp] theorem Block.latch_phase (b : Block) (w : Word) : (b.latch w).phase = b.phase := rfl
@[simp] theorem Block.latch_idx (b : Block) (w : Word) : (b.latch w).idx = b.idx := rfl
@[simp] theorem Block.latch_pcode (b : Block) (w : Word) : (b.latch w).pcode = b.pcode := rfl

/-! ### Block.acceptTxc -/

@[simp] theorem Block.acceptTxc_cmdreg (b : Block) (w : Word) : (b.acceptTxc w).cmdreg = w := rfl
@[simp] theorem Block.acceptTxc_busy (b : Block) (w : Word) : (b.acceptTxc w).busy = true := rfl
@[simp] theorem Block.acceptTxc_done (b : Block) (w : Word) : (b.acceptTxc w).done = false := rfl
@[simp] theorem Block.acceptTxc_code (b : Block) (w : Word) : (b.acceptTxc w).code = .ok := rfl
@[simp] theorem Block.acceptTxc_present (b : Block) (w : Word) : (b.acceptTxc w).present = false := rfl
@[simp] theorem Block.acceptTxc_ovr (b : Block) (w : Word) : (b.acceptTxc w).ovr = false := rfl
@[simp] theorem Block.acceptTxc_rxcnt (b : Block) (w : Word) : (b.acceptTxc w).rxcnt = 0 := rfl
@[simp] theorem Block.acceptTxc_modeSel (b : Block) (w : Word) : (b.acceptTxc w).modeSel = b.modeSel := rfl
@[simp] theorem Block.acceptTxc_rxbuf (b : Block) (w : Word) : (b.acceptTxc w).rxbuf = b.rxbuf := rfl
@[simp] theorem Block.acceptTxc_raw (b : Block) (w : Word) : (b.acceptTxc w).raw = b.raw := rfl
@[simp] theorem Block.acceptTxc_phys (b : Block) (w : Word) : (b.acceptTxc w).phys = b.phys := rfl
@[simp] theorem Block.acceptTxc_framelen (b : Block) (w : Word) : (b.acceptTxc w).framelen = b.framelen := rfl
@[simp] theorem Block.acceptTxc_frame (b : Block) (w : Word) : (b.acceptTxc w).frame = b.frame := rfl
@[simp] theorem Block.acceptTxc_phase (b : Block) (w : Word) : (b.acceptTxc w).phase = .pStart := rfl
@[simp] theorem Block.acceptTxc_idx (b : Block) (w : Word) : (b.acceptTxc w).idx = 0 := rfl
@[simp] theorem Block.acceptTxc_pcode (b : Block) (w : Word) : (b.acceptTxc w).pcode = .ok := rfl

/-! ### Block.acceptIllegal -/

@[simp] theorem Block.acceptIllegal_cmdreg (b : Block) (w : Word) : (b.acceptIllegal w).cmdreg = w := rfl
@[simp] theorem Block.acceptIllegal_busy (b : Block) (w : Word) : (b.acceptIllegal w).busy = b.busy := rfl
@[simp] theorem Block.acceptIllegal_done (b : Block) (w : Word) : (b.acceptIllegal w).done = true := rfl
@[simp] theorem Block.acceptIllegal_code (b : Block) (w : Word) : (b.acceptIllegal w).code = .illegal := rfl
@[simp] theorem Block.acceptIllegal_present (b : Block) (w : Word) : (b.acceptIllegal w).present = false := rfl
@[simp] theorem Block.acceptIllegal_ovr (b : Block) (w : Word) : (b.acceptIllegal w).ovr = false := rfl
@[simp] theorem Block.acceptIllegal_rxcnt (b : Block) (w : Word) : (b.acceptIllegal w).rxcnt = b.rxcnt := rfl
@[simp] theorem Block.acceptIllegal_modeSel (b : Block) (w : Word) : (b.acceptIllegal w).modeSel = b.modeSel := rfl
@[simp] theorem Block.acceptIllegal_rxbuf (b : Block) (w : Word) : (b.acceptIllegal w).rxbuf = b.rxbuf := rfl
@[simp] theorem Block.acceptIllegal_raw (b : Block) (w : Word) : (b.acceptIllegal w).raw = b.raw := rfl
@[simp] theorem Block.acceptIllegal_phys (b : Block) (w : Word) : (b.acceptIllegal w).phys = b.phys := rfl
@[simp] theorem Block.acceptIllegal_framelen (b : Block) (w : Word) : (b.acceptIllegal w).framelen = b.framelen := rfl
@[simp] theorem Block.acceptIllegal_frame (b : Block) (w : Word) : (b.acceptIllegal w).frame = b.frame := rfl
@[simp] theorem Block.acceptIllegal_phase (b : Block) (w : Word) : (b.acceptIllegal w).phase = b.phase := rfl
@[simp] theorem Block.acceptIllegal_idx (b : Block) (w : Word) : (b.acceptIllegal w).idx = b.idx := rfl
@[simp] theorem Block.acceptIllegal_pcode (b : Block) (w : Word) : (b.acceptIllegal w).pcode = b.pcode := rfl

/-! ### Block.acceptDecoder -/

@[simp] theorem Block.acceptDecoder_cmdreg (b : Block) (w : Word) : (b.acceptDecoder w).cmdreg = w := rfl
@[simp] theorem Block.acceptDecoder_busy (b : Block) (w : Word) : (b.acceptDecoder w).busy = b.busy := rfl
@[simp] theorem Block.acceptDecoder_done (b : Block) (w : Word) : (b.acceptDecoder w).done = true := rfl
@[simp] theorem Block.acceptDecoder_code (b : Block) (w : Word) : (b.acceptDecoder w).code = .ok := rfl
@[simp] theorem Block.acceptDecoder_present (b : Block) (w : Word) : (b.acceptDecoder w).present = false := rfl
@[simp] theorem Block.acceptDecoder_ovr (b : Block) (w : Word) : (b.acceptDecoder w).ovr = false := rfl
@[simp] theorem Block.acceptDecoder_rxcnt (b : Block) (w : Word) : (b.acceptDecoder w).rxcnt = b.rxcnt := rfl
@[simp] theorem Block.acceptDecoder_modeSel (b : Block) (w : Word) : (b.acceptDecoder w).modeSel = b.modeSel := rfl
@[simp] theorem Block.acceptDecoder_rxbuf (b : Block) (w : Word) : (b.acceptDecoder w).rxbuf = b.rxbuf := rfl
@[simp] theorem Block.acceptDecoder_raw (b : Block) (w : Word) : (b.acceptDecoder w).raw = b.raw := rfl
@[simp] theorem Block.acceptDecoder_phys (b : Block) (w : Word) : (b.acceptDecoder w).phys = b.phys := rfl
@[simp] theorem Block.acceptDecoder_framelen (b : Block) (w : Word) : (b.acceptDecoder w).framelen = b.framelen := rfl
@[simp] theorem Block.acceptDecoder_frame (b : Block) (w : Word) : (b.acceptDecoder w).frame = b.frame := rfl
@[simp] theorem Block.acceptDecoder_phase (b : Block) (w : Word) : (b.acceptDecoder w).phase = b.phase := rfl
@[simp] theorem Block.acceptDecoder_idx (b : Block) (w : Word) : (b.acceptDecoder w).idx = b.idx := rfl
@[simp] theorem Block.acceptDecoder_pcode (b : Block) (w : Word) : (b.acceptDecoder w).pcode = b.pcode := rfl

/-! ### Block.dropWrite -/

@[simp] theorem Block.dropWrite_cmdreg (b : Block) : (b.dropWrite).cmdreg = b.cmdreg := rfl
@[simp] theorem Block.dropWrite_busy (b : Block) : (b.dropWrite).busy = b.busy := rfl
@[simp] theorem Block.dropWrite_done (b : Block) : (b.dropWrite).done = b.done := rfl
@[simp] theorem Block.dropWrite_code (b : Block) : (b.dropWrite).code = b.code := rfl
@[simp] theorem Block.dropWrite_present (b : Block) : (b.dropWrite).present = b.present := rfl
@[simp] theorem Block.dropWrite_ovr (b : Block) : (b.dropWrite).ovr = true := rfl
@[simp] theorem Block.dropWrite_rxcnt (b : Block) : (b.dropWrite).rxcnt = b.rxcnt := rfl
@[simp] theorem Block.dropWrite_modeSel (b : Block) : (b.dropWrite).modeSel = b.modeSel := rfl
@[simp] theorem Block.dropWrite_rxbuf (b : Block) : (b.dropWrite).rxbuf = b.rxbuf := rfl
@[simp] theorem Block.dropWrite_raw (b : Block) : (b.dropWrite).raw = b.raw := rfl
@[simp] theorem Block.dropWrite_phys (b : Block) : (b.dropWrite).phys = b.phys := rfl
@[simp] theorem Block.dropWrite_framelen (b : Block) : (b.dropWrite).framelen = b.framelen := rfl
@[simp] theorem Block.dropWrite_frame (b : Block) : (b.dropWrite).frame = b.frame := rfl
@[simp] theorem Block.dropWrite_phase (b : Block) : (b.dropWrite).phase = b.phase := rfl
@[simp] theorem Block.dropWrite_idx (b : Block) : (b.dropWrite).idx = b.idx := rfl
@[simp] theorem Block.dropWrite_pcode (b : Block) : (b.dropWrite).pcode = b.pcode := rfl

/-! ### Block.abort -/

@[simp] theorem Block.abort_cmdreg (b : Block) (c : Code) : (b.abort c).cmdreg = b.cmdreg := rfl
@[simp] theorem Block.abort_busy (b : Block) (c : Code) : (b.abort c).busy = b.busy := rfl
@[simp] theorem Block.abort_done (b : Block) (c : Code) : (b.abort c).done = b.done := rfl
@[simp] theorem Block.abort_code (b : Block) (c : Code) : (b.abort c).code = b.code := rfl
@[simp] theorem Block.abort_present (b : Block) (c : Code) : (b.abort c).present = b.present := rfl
@[simp] theorem Block.abort_ovr (b : Block) (c : Code) : (b.abort c).ovr = b.ovr := rfl
@[simp] theorem Block.abort_rxcnt (b : Block) (c : Code) : (b.abort c).rxcnt = b.rxcnt := rfl
@[simp] theorem Block.abort_modeSel (b : Block) (c : Code) : (b.abort c).modeSel = b.modeSel := rfl
@[simp] theorem Block.abort_rxbuf (b : Block) (c : Code) : (b.abort c).rxbuf = b.rxbuf := rfl
@[simp] theorem Block.abort_raw (b : Block) (c : Code) : (b.abort c).raw = b.raw := rfl
@[simp] theorem Block.abort_phys (b : Block) (c : Code) : (b.abort c).phys = b.phys := rfl
@[simp] theorem Block.abort_framelen (b : Block) (c : Code) : (b.abort c).framelen = b.framelen := rfl
@[simp] theorem Block.abort_frame (b : Block) (c : Code) : (b.abort c).frame = b.frame := rfl
@[simp] theorem Block.abort_phase (b : Block) (c : Code) : (b.abort c).phase = .pStop := rfl
@[simp] theorem Block.abort_idx (b : Block) (c : Code) : (b.abort c).idx = b.idx := rfl
@[simp] theorem Block.abort_pcode (b : Block) (c : Code) : (b.abort c).pcode = c := rfl

/-! ### Block.finish -/

@[simp] theorem Block.finish_cmdreg (b : Block) (c : Code) (n : Nat) : (b.finish c n).cmdreg = b.cmdreg := rfl
@[simp] theorem Block.finish_busy (b : Block) (c : Code) (n : Nat) : (b.finish c n).busy = false := rfl
@[simp] theorem Block.finish_done (b : Block) (c : Code) (n : Nat) : (b.finish c n).done = true := rfl
@[simp] theorem Block.finish_code (b : Block) (c : Code) (n : Nat) : (b.finish c n).code = c := rfl
@[simp] theorem Block.finish_present (b : Block) (c : Code) (n : Nat) : (b.finish c n).present = b.present := rfl
@[simp] theorem Block.finish_ovr (b : Block) (c : Code) (n : Nat) : (b.finish c n).ovr = b.ovr := rfl
@[simp] theorem Block.finish_rxcnt (b : Block) (c : Code) (n : Nat) : (b.finish c n).rxcnt = if c = .ok then BitVec.ofNat 4 n else 0 := rfl
@[simp] theorem Block.finish_modeSel (b : Block) (c : Code) (n : Nat) : (b.finish c n).modeSel = b.modeSel := rfl
@[simp] theorem Block.finish_rxbuf (b : Block) (c : Code) (n : Nat) : (b.finish c n).rxbuf = b.rxbuf := rfl
@[simp] theorem Block.finish_raw (b : Block) (c : Code) (n : Nat) : (b.finish c n).raw = b.raw := rfl
@[simp] theorem Block.finish_phys (b : Block) (c : Code) (n : Nat) : (b.finish c n).phys = b.phys := rfl
@[simp] theorem Block.finish_framelen (b : Block) (c : Code) (n : Nat) : (b.finish c n).framelen = b.framelen := rfl
@[simp] theorem Block.finish_frame (b : Block) (c : Code) (n : Nat) : (b.finish c n).frame = b.frame := rfl
@[simp] theorem Block.finish_phase (b : Block) (c : Code) (n : Nat) : (b.finish c n).phase = .idle := rfl
@[simp] theorem Block.finish_idx (b : Block) (c : Code) (n : Nat) : (b.finish c n).idx = b.idx := rfl
@[simp] theorem Block.finish_pcode (b : Block) (c : Code) (n : Nat) : (b.finish c n).pcode = b.pcode := rfl

/-! ### Block.setRaw -/

@[simp] theorem Block.setRaw_cmdreg (b : Block) (r : Vector Half 3) : (b.setRaw r).cmdreg = b.cmdreg := rfl
@[simp] theorem Block.setRaw_busy (b : Block) (r : Vector Half 3) : (b.setRaw r).busy = b.busy := rfl
@[simp] theorem Block.setRaw_done (b : Block) (r : Vector Half 3) : (b.setRaw r).done = b.done := rfl
@[simp] theorem Block.setRaw_code (b : Block) (r : Vector Half 3) : (b.setRaw r).code = b.code := rfl
@[simp] theorem Block.setRaw_present (b : Block) (r : Vector Half 3) : (b.setRaw r).present = b.present := rfl
@[simp] theorem Block.setRaw_ovr (b : Block) (r : Vector Half 3) : (b.setRaw r).ovr = b.ovr := rfl
@[simp] theorem Block.setRaw_rxcnt (b : Block) (r : Vector Half 3) : (b.setRaw r).rxcnt = b.rxcnt := rfl
@[simp] theorem Block.setRaw_modeSel (b : Block) (r : Vector Half 3) : (b.setRaw r).modeSel = b.modeSel := rfl
@[simp] theorem Block.setRaw_rxbuf (b : Block) (r : Vector Half 3) : (b.setRaw r).rxbuf = b.rxbuf := rfl
@[simp] theorem Block.setRaw_raw (b : Block) (r : Vector Half 3) : (b.setRaw r).raw = r := rfl
@[simp] theorem Block.setRaw_phys (b : Block) (r : Vector Half 3) : (b.setRaw r).phys = b.phys := rfl
@[simp] theorem Block.setRaw_framelen (b : Block) (r : Vector Half 3) : (b.setRaw r).framelen = b.framelen := rfl
@[simp] theorem Block.setRaw_frame (b : Block) (r : Vector Half 3) : (b.setRaw r).frame = b.frame := rfl
@[simp] theorem Block.setRaw_phase (b : Block) (r : Vector Half 3) : (b.setRaw r).phase = b.phase := rfl
@[simp] theorem Block.setRaw_idx (b : Block) (r : Vector Half 3) : (b.setRaw r).idx = b.idx := rfl
@[simp] theorem Block.setRaw_pcode (b : Block) (r : Vector Half 3) : (b.setRaw r).pcode = b.pcode := rfl

/-! ### Block.setPhys -/

@[simp] theorem Block.setPhys_cmdreg (b : Block) (p : Vector Word 3) : (b.setPhys p).cmdreg = b.cmdreg := rfl
@[simp] theorem Block.setPhys_busy (b : Block) (p : Vector Word 3) : (b.setPhys p).busy = b.busy := rfl
@[simp] theorem Block.setPhys_done (b : Block) (p : Vector Word 3) : (b.setPhys p).done = b.done := rfl
@[simp] theorem Block.setPhys_code (b : Block) (p : Vector Word 3) : (b.setPhys p).code = b.code := rfl
@[simp] theorem Block.setPhys_present (b : Block) (p : Vector Word 3) : (b.setPhys p).present = b.present := rfl
@[simp] theorem Block.setPhys_ovr (b : Block) (p : Vector Word 3) : (b.setPhys p).ovr = b.ovr := rfl
@[simp] theorem Block.setPhys_rxcnt (b : Block) (p : Vector Word 3) : (b.setPhys p).rxcnt = b.rxcnt := rfl
@[simp] theorem Block.setPhys_modeSel (b : Block) (p : Vector Word 3) : (b.setPhys p).modeSel = b.modeSel := rfl
@[simp] theorem Block.setPhys_rxbuf (b : Block) (p : Vector Word 3) : (b.setPhys p).rxbuf = b.rxbuf := rfl
@[simp] theorem Block.setPhys_raw (b : Block) (p : Vector Word 3) : (b.setPhys p).raw = b.raw := rfl
@[simp] theorem Block.setPhys_phys (b : Block) (p : Vector Word 3) : (b.setPhys p).phys = p := rfl
@[simp] theorem Block.setPhys_framelen (b : Block) (p : Vector Word 3) : (b.setPhys p).framelen = b.framelen := rfl
@[simp] theorem Block.setPhys_frame (b : Block) (p : Vector Word 3) : (b.setPhys p).frame = b.frame := rfl
@[simp] theorem Block.setPhys_phase (b : Block) (p : Vector Word 3) : (b.setPhys p).phase = b.phase := rfl
@[simp] theorem Block.setPhys_idx (b : Block) (p : Vector Word 3) : (b.setPhys p).idx = b.idx := rfl
@[simp] theorem Block.setPhys_pcode (b : Block) (p : Vector Word 3) : (b.setPhys p).pcode = b.pcode := rfl

/-! ### Block.setFrame -/

@[simp] theorem Block.setFrame_cmdreg (b : Block) (f : Vector Byte 14) (n : BitVec 4) : (b.setFrame f n).cmdreg = b.cmdreg := rfl
@[simp] theorem Block.setFrame_busy (b : Block) (f : Vector Byte 14) (n : BitVec 4) : (b.setFrame f n).busy = b.busy := rfl
@[simp] theorem Block.setFrame_done (b : Block) (f : Vector Byte 14) (n : BitVec 4) : (b.setFrame f n).done = b.done := rfl
@[simp] theorem Block.setFrame_code (b : Block) (f : Vector Byte 14) (n : BitVec 4) : (b.setFrame f n).code = b.code := rfl
@[simp] theorem Block.setFrame_present (b : Block) (f : Vector Byte 14) (n : BitVec 4) : (b.setFrame f n).present = b.present := rfl
@[simp] theorem Block.setFrame_ovr (b : Block) (f : Vector Byte 14) (n : BitVec 4) : (b.setFrame f n).ovr = b.ovr := rfl
@[simp] theorem Block.setFrame_rxcnt (b : Block) (f : Vector Byte 14) (n : BitVec 4) : (b.setFrame f n).rxcnt = b.rxcnt := rfl
@[simp] theorem Block.setFrame_modeSel (b : Block) (f : Vector Byte 14) (n : BitVec 4) : (b.setFrame f n).modeSel = b.modeSel := rfl
@[simp] theorem Block.setFrame_rxbuf (b : Block) (f : Vector Byte 14) (n : BitVec 4) : (b.setFrame f n).rxbuf = b.rxbuf := rfl
@[simp] theorem Block.setFrame_raw (b : Block) (f : Vector Byte 14) (n : BitVec 4) : (b.setFrame f n).raw = b.raw := rfl
@[simp] theorem Block.setFrame_phys (b : Block) (f : Vector Byte 14) (n : BitVec 4) : (b.setFrame f n).phys = b.phys := rfl
@[simp] theorem Block.setFrame_framelen (b : Block) (f : Vector Byte 14) (n : BitVec 4) : (b.setFrame f n).framelen = n := rfl
@[simp] theorem Block.setFrame_frame (b : Block) (f : Vector Byte 14) (n : BitVec 4) : (b.setFrame f n).frame = f := rfl
@[simp] theorem Block.setFrame_phase (b : Block) (f : Vector Byte 14) (n : BitVec 4) : (b.setFrame f n).phase = b.phase := rfl
@[simp] theorem Block.setFrame_idx (b : Block) (f : Vector Byte 14) (n : BitVec 4) : (b.setFrame f n).idx = b.idx := rfl
@[simp] theorem Block.setFrame_pcode (b : Block) (f : Vector Byte 14) (n : BitVec 4) : (b.setFrame f n).pcode = b.pcode := rfl

/-! ### Block.writeMode -/

@[simp] theorem Block.writeMode_cmdreg (b : Block) (v : Word) : (b.writeMode v).cmdreg = b.cmdreg := rfl
@[simp] theorem Block.writeMode_busy (b : Block) (v : Word) : (b.writeMode v).busy = b.busy := rfl
@[simp] theorem Block.writeMode_done (b : Block) (v : Word) : (b.writeMode v).done = b.done := rfl
@[simp] theorem Block.writeMode_code (b : Block) (v : Word) : (b.writeMode v).code = b.code := rfl
@[simp] theorem Block.writeMode_present (b : Block) (v : Word) : (b.writeMode v).present = b.present := rfl
@[simp] theorem Block.writeMode_ovr (b : Block) (v : Word) : (b.writeMode v).ovr = b.ovr := rfl
@[simp] theorem Block.writeMode_rxcnt (b : Block) (v : Word) : (b.writeMode v).rxcnt = b.rxcnt := rfl
@[simp] theorem Block.writeMode_modeSel (b : Block) (v : Word) : (b.writeMode v).modeSel = v.getLsbD 0 := rfl
@[simp] theorem Block.writeMode_rxbuf (b : Block) (v : Word) : (b.writeMode v).rxbuf = b.rxbuf := rfl
@[simp] theorem Block.writeMode_raw (b : Block) (v : Word) : (b.writeMode v).raw = b.raw := rfl
@[simp] theorem Block.writeMode_phys (b : Block) (v : Word) : (b.writeMode v).phys = b.phys := rfl
@[simp] theorem Block.writeMode_framelen (b : Block) (v : Word) : (b.writeMode v).framelen = b.framelen := rfl
@[simp] theorem Block.writeMode_frame (b : Block) (v : Word) : (b.writeMode v).frame = b.frame := rfl
@[simp] theorem Block.writeMode_phase (b : Block) (v : Word) : (b.writeMode v).phase = b.phase := rfl
@[simp] theorem Block.writeMode_idx (b : Block) (v : Word) : (b.writeMode v).idx = b.idx := rfl
@[simp] theorem Block.writeMode_pcode (b : Block) (v : Word) : (b.writeMode v).pcode = b.pcode := rfl

/-! ### Block.storeRx -/

@[simp] theorem Block.storeRx_cmdreg (b : Block) (v : Byte) : (b.storeRx v).cmdreg = b.cmdreg := rfl
@[simp] theorem Block.storeRx_busy (b : Block) (v : Byte) : (b.storeRx v).busy = b.busy := rfl
@[simp] theorem Block.storeRx_done (b : Block) (v : Byte) : (b.storeRx v).done = b.done := rfl
@[simp] theorem Block.storeRx_code (b : Block) (v : Byte) : (b.storeRx v).code = b.code := rfl
@[simp] theorem Block.storeRx_present (b : Block) (v : Byte) : (b.storeRx v).present = b.present := rfl
@[simp] theorem Block.storeRx_ovr (b : Block) (v : Byte) : (b.storeRx v).ovr = b.ovr := rfl
@[simp] theorem Block.storeRx_rxcnt (b : Block) (v : Byte) : (b.storeRx v).rxcnt = b.rxcnt := rfl
@[simp] theorem Block.storeRx_modeSel (b : Block) (v : Byte) : (b.storeRx v).modeSel = b.modeSel := rfl
@[simp] theorem Block.storeRx_rxbuf (b : Block) (v : Byte) : (b.storeRx v).rxbuf = b.rxbuf.setIfInBounds b.idx.toNat v := rfl
@[simp] theorem Block.storeRx_raw (b : Block) (v : Byte) : (b.storeRx v).raw = b.raw := rfl
@[simp] theorem Block.storeRx_phys (b : Block) (v : Byte) : (b.storeRx v).phys = b.phys := rfl
@[simp] theorem Block.storeRx_framelen (b : Block) (v : Byte) : (b.storeRx v).framelen = b.framelen := rfl
@[simp] theorem Block.storeRx_frame (b : Block) (v : Byte) : (b.storeRx v).frame = b.frame := rfl
@[simp] theorem Block.storeRx_phase (b : Block) (v : Byte) : (b.storeRx v).phase = b.phase := rfl
@[simp] theorem Block.storeRx_idx (b : Block) (v : Byte) : (b.storeRx v).idx = b.idx := rfl
@[simp] theorem Block.storeRx_pcode (b : Block) (v : Byte) : (b.storeRx v).pcode = b.pcode := rfl

/-! ### State.withBlk -/

@[simp] theorem State.withBlk_blk (s : State) (f : Block → Block) : (s.withBlk f).blk = f s.blk := rfl
@[simp] theorem State.withBlk_env (s : State) (f : Block → Block) : (s.withBlk f).env = s.env := rfl
@[simp] theorem State.withBlk_host (s : State) (f : Block → Block) : (s.withBlk f).host = s.host := rfl
@[simp] theorem State.withBlk_trace (s : State) (f : Block → Block) : (s.withBlk f).trace = s.trace := rfl
@[simp] theorem State.withBlk_params (s : State) (f : Block → Block) : (s.withBlk f).params = s.params := rfl
@[simp] theorem State.withBlk_sched (s : State) (f : Block → Block) : (s.withBlk f).sched = s.sched := rfl
@[simp] theorem State.withBlk_clock (s : State) (f : Block → Block) : (s.withBlk f).clock = s.clock := rfl
@[simp] theorem State.withBlk_resets (s : State) (f : Block → Block) : (s.withBlk f).resets = s.resets := rfl

/-! ### State.goto -/

@[simp] theorem State.goto_blk (s : State) (c : CtlPoint) : (s.goto c).blk = s.blk := rfl
@[simp] theorem State.goto_env (s : State) (c : CtlPoint) : (s.goto c).env = s.env := rfl
@[simp] theorem State.goto_trace (s : State) (c : CtlPoint) : (s.goto c).trace = s.trace := rfl
@[simp] theorem State.goto_params (s : State) (c : CtlPoint) : (s.goto c).params = s.params := rfl
@[simp] theorem State.goto_sched (s : State) (c : CtlPoint) : (s.goto c).sched = s.sched := rfl
@[simp] theorem State.goto_clock (s : State) (c : CtlPoint) : (s.goto c).clock = s.clock := rfl
@[simp] theorem State.goto_resets (s : State) (c : CtlPoint) : (s.goto c).resets = s.resets := rfl
@[simp] theorem State.goto_pend (s : State) (c : CtlPoint) : (s.goto c).host.pend = s.host.pend := rfl
@[simp] theorem State.goto_tickOn (s : State) (c : CtlPoint) : (s.goto c).host.tickOn = s.host.tickOn := rfl
@[simp] theorem State.goto_ctl (s : State) (c : CtlPoint) : (s.goto c).host.ctl = c := rfl
@[simp] theorem State.goto_buf (s : State) (c : CtlPoint) : (s.goto c).host.buf = s.host.buf := rfl
@[simp] theorem State.goto_prog (s : State) (c : CtlPoint) : (s.goto c).host.prog = s.host.prog := rfl
@[simp] theorem State.goto_reports (s : State) (c : CtlPoint) : (s.goto c).host.reports = s.host.reports := rfl
@[simp] theorem State.goto_sink (s : State) (c : CtlPoint) : (s.goto c).host.sink = s.host.sink := rfl
@[simp] theorem State.goto_reads (s : State) (c : CtlPoint) : (s.goto c).host.reads = s.host.reads := rfl
@[simp] theorem State.goto_checks (s : State) (c : CtlPoint) : (s.goto c).host.checks = s.host.checks := rfl
@[simp] theorem State.goto_returns (s : State) (c : CtlPoint) : (s.goto c).host.returns = s.host.returns := rfl

/-! ### State.logRead -/

@[simp] theorem State.logRead_blk (s : State) (off : Nat) (v : Word) : (s.logRead off v).blk = s.blk := rfl
@[simp] theorem State.logRead_env (s : State) (off : Nat) (v : Word) : (s.logRead off v).env = s.env := rfl
@[simp] theorem State.logRead_trace (s : State) (off : Nat) (v : Word) : (s.logRead off v).trace = s.trace := rfl
@[simp] theorem State.logRead_params (s : State) (off : Nat) (v : Word) : (s.logRead off v).params = s.params := rfl
@[simp] theorem State.logRead_sched (s : State) (off : Nat) (v : Word) : (s.logRead off v).sched = s.sched := rfl
@[simp] theorem State.logRead_clock (s : State) (off : Nat) (v : Word) : (s.logRead off v).clock = s.clock := rfl
@[simp] theorem State.logRead_resets (s : State) (off : Nat) (v : Word) : (s.logRead off v).resets = s.resets := rfl
@[simp] theorem State.logRead_pend (s : State) (off : Nat) (v : Word) : (s.logRead off v).host.pend = s.host.pend := rfl
@[simp] theorem State.logRead_tickOn (s : State) (off : Nat) (v : Word) : (s.logRead off v).host.tickOn = s.host.tickOn := rfl
@[simp] theorem State.logRead_ctl (s : State) (off : Nat) (v : Word) : (s.logRead off v).host.ctl = s.host.ctl := rfl
@[simp] theorem State.logRead_buf (s : State) (off : Nat) (v : Word) : (s.logRead off v).host.buf = s.host.buf := rfl
@[simp] theorem State.logRead_prog (s : State) (off : Nat) (v : Word) : (s.logRead off v).host.prog = s.host.prog := rfl
@[simp] theorem State.logRead_reports (s : State) (off : Nat) (v : Word) : (s.logRead off v).host.reports = s.host.reports := rfl
@[simp] theorem State.logRead_sink (s : State) (off : Nat) (v : Word) : (s.logRead off v).host.sink = s.host.sink := rfl
@[simp] theorem State.logRead_reads (s : State) (off : Nat) (v : Word) : (s.logRead off v).host.reads = s.host.reads ++ [(off, v)] := rfl
@[simp] theorem State.logRead_checks (s : State) (off : Nat) (v : Word) : (s.logRead off v).host.checks = s.host.checks := rfl
@[simp] theorem State.logRead_returns (s : State) (off : Nat) (v : Word) : (s.logRead off v).host.returns = s.host.returns := rfl

/-! ### State.report -/

@[simp] theorem State.report_blk (s : State) (r : Report) : (s.report r).blk = s.blk := rfl
@[simp] theorem State.report_env (s : State) (r : Report) : (s.report r).env = s.env := rfl
@[simp] theorem State.report_trace (s : State) (r : Report) : (s.report r).trace = s.trace := rfl
@[simp] theorem State.report_params (s : State) (r : Report) : (s.report r).params = s.params := rfl
@[simp] theorem State.report_sched (s : State) (r : Report) : (s.report r).sched = s.sched := rfl
@[simp] theorem State.report_clock (s : State) (r : Report) : (s.report r).clock = s.clock := rfl
@[simp] theorem State.report_resets (s : State) (r : Report) : (s.report r).resets = s.resets := rfl
@[simp] theorem State.report_pend (s : State) (r : Report) : (s.report r).host.pend = s.host.pend := rfl
@[simp] theorem State.report_tickOn (s : State) (r : Report) : (s.report r).host.tickOn = s.host.tickOn := rfl
@[simp] theorem State.report_ctl (s : State) (r : Report) : (s.report r).host.ctl = s.host.ctl := rfl
@[simp] theorem State.report_buf (s : State) (r : Report) : (s.report r).host.buf = s.host.buf := rfl
@[simp] theorem State.report_prog (s : State) (r : Report) : (s.report r).host.prog = s.host.prog := rfl
@[simp] theorem State.report_reports (s : State) (r : Report) : (s.report r).host.reports = s.host.reports ++ [r] := rfl
@[simp] theorem State.report_sink (s : State) (r : Report) : (s.report r).host.sink = s.host.sink ++ r.toSink := rfl
@[simp] theorem State.report_reads (s : State) (r : Report) : (s.report r).host.reads = s.host.reads := rfl
@[simp] theorem State.report_checks (s : State) (r : Report) : (s.report r).host.checks = s.host.checks := rfl
@[simp] theorem State.report_returns (s : State) (r : Report) : (s.report r).host.returns = s.host.returns := rfl

/-! ### State.push -/

@[simp] theorem State.push_blk (s : State) (d : Directive) : (s.push d).blk = s.blk := rfl
@[simp] theorem State.push_env (s : State) (d : Directive) : (s.push d).env = s.env := rfl
@[simp] theorem State.push_trace (s : State) (d : Directive) : (s.push d).trace = s.trace := rfl
@[simp] theorem State.push_params (s : State) (d : Directive) : (s.push d).params = s.params := rfl
@[simp] theorem State.push_sched (s : State) (d : Directive) : (s.push d).sched = s.sched := rfl
@[simp] theorem State.push_clock (s : State) (d : Directive) : (s.push d).clock = s.clock := rfl
@[simp] theorem State.push_resets (s : State) (d : Directive) : (s.push d).resets = s.resets := rfl
@[simp] theorem State.push_pend (s : State) (d : Directive) : (s.push d).host.pend = s.host.pend := rfl
@[simp] theorem State.push_tickOn (s : State) (d : Directive) : (s.push d).host.tickOn = s.host.tickOn := rfl
@[simp] theorem State.push_ctl (s : State) (d : Directive) : (s.push d).host.ctl = s.host.ctl := rfl
@[simp] theorem State.push_buf (s : State) (d : Directive) : (s.push d).host.buf = s.host.buf := rfl
@[simp] theorem State.push_prog (s : State) (d : Directive) : (s.push d).host.prog = d :: s.host.prog := rfl
@[simp] theorem State.push_reports (s : State) (d : Directive) : (s.push d).host.reports = s.host.reports := rfl
@[simp] theorem State.push_sink (s : State) (d : Directive) : (s.push d).host.sink = s.host.sink := rfl
@[simp] theorem State.push_reads (s : State) (d : Directive) : (s.push d).host.reads = s.host.reads := rfl
@[simp] theorem State.push_checks (s : State) (d : Directive) : (s.push d).host.checks = s.host.checks := rfl
@[simp] theorem State.push_returns (s : State) (d : Directive) : (s.push d).host.returns = s.host.returns := rfl

/-! ### State.setPend -/

@[simp] theorem State.setPend_blk (s : State) (v : Bool) : (s.setPend v).blk = s.blk := rfl
@[simp] theorem State.setPend_env (s : State) (v : Bool) : (s.setPend v).env = s.env := rfl
@[simp] theorem State.setPend_trace (s : State) (v : Bool) : (s.setPend v).trace = s.trace := rfl
@[simp] theorem State.setPend_params (s : State) (v : Bool) : (s.setPend v).params = s.params := rfl
@[simp] theorem State.setPend_sched (s : State) (v : Bool) : (s.setPend v).sched = s.sched := rfl
@[simp] theorem State.setPend_clock (s : State) (v : Bool) : (s.setPend v).clock = s.clock := rfl
@[simp] theorem State.setPend_resets (s : State) (v : Bool) : (s.setPend v).resets = s.resets := rfl
@[simp] theorem State.setPend_pend (s : State) (v : Bool) : (s.setPend v).host.pend = v := rfl
@[simp] theorem State.setPend_tickOn (s : State) (v : Bool) : (s.setPend v).host.tickOn = s.host.tickOn := rfl
@[simp] theorem State.setPend_ctl (s : State) (v : Bool) : (s.setPend v).host.ctl = s.host.ctl := rfl
@[simp] theorem State.setPend_buf (s : State) (v : Bool) : (s.setPend v).host.buf = s.host.buf := rfl
@[simp] theorem State.setPend_prog (s : State) (v : Bool) : (s.setPend v).host.prog = s.host.prog := rfl
@[simp] theorem State.setPend_reports (s : State) (v : Bool) : (s.setPend v).host.reports = s.host.reports := rfl
@[simp] theorem State.setPend_sink (s : State) (v : Bool) : (s.setPend v).host.sink = s.host.sink := rfl
@[simp] theorem State.setPend_reads (s : State) (v : Bool) : (s.setPend v).host.reads = s.host.reads := rfl
@[simp] theorem State.setPend_checks (s : State) (v : Bool) : (s.setPend v).host.checks = s.host.checks := rfl
@[simp] theorem State.setPend_returns (s : State) (v : Bool) : (s.setPend v).host.returns = s.host.returns := rfl

/-! ### State.startTick -/

@[simp] theorem State.startTick_blk (s : State) : (s.startTick).blk = s.blk := rfl
@[simp] theorem State.startTick_env (s : State) : (s.startTick).env = s.env := rfl
@[simp] theorem State.startTick_trace (s : State) : (s.startTick).trace = s.trace := rfl
@[simp] theorem State.startTick_params (s : State) : (s.startTick).params = s.params := rfl
@[simp] theorem State.startTick_sched (s : State) : (s.startTick).sched = s.sched := rfl
@[simp] theorem State.startTick_clock (s : State) : (s.startTick).clock = s.clock := rfl
@[simp] theorem State.startTick_resets (s : State) : (s.startTick).resets = s.resets := rfl
@[simp] theorem State.startTick_pend (s : State) : (s.startTick).host.pend = s.host.pend := rfl
@[simp] theorem State.startTick_tickOn (s : State) : (s.startTick).host.tickOn = true := rfl
@[simp] theorem State.startTick_ctl (s : State) : (s.startTick).host.ctl = s.host.ctl := rfl
@[simp] theorem State.startTick_buf (s : State) : (s.startTick).host.buf = s.host.buf := rfl
@[simp] theorem State.startTick_prog (s : State) : (s.startTick).host.prog = s.host.prog := rfl
@[simp] theorem State.startTick_reports (s : State) : (s.startTick).host.reports = s.host.reports := rfl
@[simp] theorem State.startTick_sink (s : State) : (s.startTick).host.sink = s.host.sink := rfl
@[simp] theorem State.startTick_reads (s : State) : (s.startTick).host.reads = s.host.reads := rfl
@[simp] theorem State.startTick_checks (s : State) : (s.startTick).host.checks = s.host.checks := rfl
@[simp] theorem State.startTick_returns (s : State) : (s.startTick).host.returns = s.host.returns := rfl

/-! ### State.setBuf -/

@[simp] theorem State.setBuf_blk (s : State) (l : List Byte) : (s.setBuf l).blk = s.blk := rfl
@[simp] theorem State.setBuf_env (s : State) (l : List Byte) : (s.setBuf l).env = s.env := rfl
@[simp] theorem State.setBuf_trace (s : State) (l : List Byte) : (s.setBuf l).trace = s.trace := rfl
@[simp] theorem State.setBuf_params (s : State) (l : List Byte) : (s.setBuf l).params = s.params := rfl
@[simp] theorem State.setBuf_sched (s : State) (l : List Byte) : (s.setBuf l).sched = s.sched := rfl
@[simp] theorem State.setBuf_clock (s : State) (l : List Byte) : (s.setBuf l).clock = s.clock := rfl
@[simp] theorem State.setBuf_resets (s : State) (l : List Byte) : (s.setBuf l).resets = s.resets := rfl
@[simp] theorem State.setBuf_pend (s : State) (l : List Byte) : (s.setBuf l).host.pend = s.host.pend := rfl
@[simp] theorem State.setBuf_tickOn (s : State) (l : List Byte) : (s.setBuf l).host.tickOn = s.host.tickOn := rfl
@[simp] theorem State.setBuf_ctl (s : State) (l : List Byte) : (s.setBuf l).host.ctl = s.host.ctl := rfl
@[simp] theorem State.setBuf_buf (s : State) (l : List Byte) : (s.setBuf l).host.buf = l := rfl
@[simp] theorem State.setBuf_prog (s : State) (l : List Byte) : (s.setBuf l).host.prog = s.host.prog := rfl
@[simp] theorem State.setBuf_reports (s : State) (l : List Byte) : (s.setBuf l).host.reports = s.host.reports := rfl
@[simp] theorem State.setBuf_sink (s : State) (l : List Byte) : (s.setBuf l).host.sink = s.host.sink := rfl
@[simp] theorem State.setBuf_reads (s : State) (l : List Byte) : (s.setBuf l).host.reads = s.host.reads := rfl
@[simp] theorem State.setBuf_checks (s : State) (l : List Byte) : (s.setBuf l).host.checks = s.host.checks := rfl
@[simp] theorem State.setBuf_returns (s : State) (l : List Byte) : (s.setBuf l).host.returns = s.host.returns := rfl

/-! ### State.sendFrame -/

@[simp] theorem State.sendFrame_blk (s : State) : (s.sendFrame).blk = s.blk := rfl
@[simp] theorem State.sendFrame_env (s : State) : (s.sendFrame).env = s.env := rfl
@[simp] theorem State.sendFrame_trace (s : State) : (s.sendFrame).trace = s.trace := rfl
@[simp] theorem State.sendFrame_params (s : State) : (s.sendFrame).params = s.params := rfl
@[simp] theorem State.sendFrame_sched (s : State) : (s.sendFrame).sched = s.sched := rfl
@[simp] theorem State.sendFrame_clock (s : State) : (s.sendFrame).clock = s.clock := rfl
@[simp] theorem State.sendFrame_resets (s : State) : (s.sendFrame).resets = s.resets := rfl
@[simp] theorem State.sendFrame_pend (s : State) : (s.sendFrame).host.pend = s.host.pend := rfl
@[simp] theorem State.sendFrame_tickOn (s : State) : (s.sendFrame).host.tickOn = s.host.tickOn := rfl
@[simp] theorem State.sendFrame_ctl (s : State) : (s.sendFrame).host.ctl = s.host.ctl := rfl
@[simp] theorem State.sendFrame_buf (s : State) : (s.sendFrame).host.buf = [] := rfl
@[simp] theorem State.sendFrame_prog (s : State) : (s.sendFrame).host.prog = s.host.prog := rfl
@[simp] theorem State.sendFrame_reports (s : State) : (s.sendFrame).host.reports = s.host.reports := rfl
@[simp] theorem State.sendFrame_sink (s : State) : (s.sendFrame).host.sink = s.host.sink ++ [.frame s.host.buf] := rfl
@[simp] theorem State.sendFrame_reads (s : State) : (s.sendFrame).host.reads = s.host.reads := rfl
@[simp] theorem State.sendFrame_checks (s : State) : (s.sendFrame).host.checks = s.host.checks := rfl
@[simp] theorem State.sendFrame_returns (s : State) : (s.sendFrame).host.returns = s.host.returns := rfl

/-! ### State.logCheck -/

@[simp] theorem State.logCheck_blk (s : State) (v : Bool) : (s.logCheck v).blk = s.blk := rfl
@[simp] theorem State.logCheck_env (s : State) (v : Bool) : (s.logCheck v).env = s.env := rfl
@[simp] theorem State.logCheck_trace (s : State) (v : Bool) : (s.logCheck v).trace = s.trace := rfl
@[simp] theorem State.logCheck_params (s : State) (v : Bool) : (s.logCheck v).params = s.params := rfl
@[simp] theorem State.logCheck_sched (s : State) (v : Bool) : (s.logCheck v).sched = s.sched := rfl
@[simp] theorem State.logCheck_clock (s : State) (v : Bool) : (s.logCheck v).clock = s.clock := rfl
@[simp] theorem State.logCheck_resets (s : State) (v : Bool) : (s.logCheck v).resets = s.resets := rfl
@[simp] theorem State.logCheck_pend (s : State) (v : Bool) : (s.logCheck v).host.pend = s.host.pend := rfl
@[simp] theorem State.logCheck_tickOn (s : State) (v : Bool) : (s.logCheck v).host.tickOn = s.host.tickOn := rfl
@[simp] theorem State.logCheck_ctl (s : State) (v : Bool) : (s.logCheck v).host.ctl = s.host.ctl := rfl
@[simp] theorem State.logCheck_buf (s : State) (v : Bool) : (s.logCheck v).host.buf = s.host.buf := rfl
@[simp] theorem State.logCheck_prog (s : State) (v : Bool) : (s.logCheck v).host.prog = s.host.prog := rfl
@[simp] theorem State.logCheck_reports (s : State) (v : Bool) : (s.logCheck v).host.reports = s.host.reports := rfl
@[simp] theorem State.logCheck_sink (s : State) (v : Bool) : (s.logCheck v).host.sink = s.host.sink := rfl
@[simp] theorem State.logCheck_reads (s : State) (v : Bool) : (s.logCheck v).host.reads = s.host.reads := rfl
@[simp] theorem State.logCheck_checks (s : State) (v : Bool) : (s.logCheck v).host.checks = s.host.checks ++ [v] := rfl
@[simp] theorem State.logCheck_returns (s : State) (v : Bool) : (s.logCheck v).host.returns = s.host.returns := rfl

/-! ### State.logReturn -/

@[simp] theorem State.logReturn_blk (s : State) (c : BusCall) (r : Option ReturnValue) : (s.logReturn c r).blk = s.blk := rfl
@[simp] theorem State.logReturn_env (s : State) (c : BusCall) (r : Option ReturnValue) : (s.logReturn c r).env = s.env := rfl
@[simp] theorem State.logReturn_trace (s : State) (c : BusCall) (r : Option ReturnValue) : (s.logReturn c r).trace = s.trace := rfl
@[simp] theorem State.logReturn_params (s : State) (c : BusCall) (r : Option ReturnValue) : (s.logReturn c r).params = s.params := rfl
@[simp] theorem State.logReturn_sched (s : State) (c : BusCall) (r : Option ReturnValue) : (s.logReturn c r).sched = s.sched := rfl
@[simp] theorem State.logReturn_clock (s : State) (c : BusCall) (r : Option ReturnValue) : (s.logReturn c r).clock = s.clock := rfl
@[simp] theorem State.logReturn_resets (s : State) (c : BusCall) (r : Option ReturnValue) : (s.logReturn c r).resets = s.resets := rfl
@[simp] theorem State.logReturn_pend (s : State) (c : BusCall) (r : Option ReturnValue) : (s.logReturn c r).host.pend = s.host.pend := rfl
@[simp] theorem State.logReturn_tickOn (s : State) (c : BusCall) (r : Option ReturnValue) : (s.logReturn c r).host.tickOn = s.host.tickOn := rfl
@[simp] theorem State.logReturn_ctl (s : State) (c : BusCall) (r : Option ReturnValue) : (s.logReturn c r).host.ctl = s.host.ctl := rfl
@[simp] theorem State.logReturn_buf (s : State) (c : BusCall) (r : Option ReturnValue) : (s.logReturn c r).host.buf = s.host.buf := rfl
@[simp] theorem State.logReturn_prog (s : State) (c : BusCall) (r : Option ReturnValue) : (s.logReturn c r).host.prog = s.host.prog := rfl
@[simp] theorem State.logReturn_reports (s : State) (c : BusCall) (r : Option ReturnValue) : (s.logReturn c r).host.reports = s.host.reports := rfl
@[simp] theorem State.logReturn_sink (s : State) (c : BusCall) (r : Option ReturnValue) : (s.logReturn c r).host.sink = s.host.sink := rfl
@[simp] theorem State.logReturn_reads (s : State) (c : BusCall) (r : Option ReturnValue) : (s.logReturn c r).host.reads = s.host.reads := rfl
@[simp] theorem State.logReturn_checks (s : State) (c : BusCall) (r : Option ReturnValue) : (s.logReturn c r).host.checks = s.host.checks := rfl
@[simp] theorem State.logReturn_returns (s : State) (c : BusCall) (r : Option ReturnValue) : (s.logReturn c r).host.returns = s.host.returns ++ [(c, r)] := rfl

/-! ### State.applyReset -/

@[simp] theorem State.applyReset_blk (s : State) : (s.applyReset).blk = Block.atReset s.resets := rfl
@[simp] theorem State.applyReset_env (s : State) : (s.applyReset).env = s.env := rfl
@[simp] theorem State.applyReset_trace (s : State) : (s.applyReset).trace = [] := rfl
@[simp] theorem State.applyReset_params (s : State) : (s.applyReset).params = s.params := rfl
@[simp] theorem State.applyReset_sched (s : State) : (s.applyReset).sched = s.sched := rfl
@[simp] theorem State.applyReset_clock (s : State) : (s.applyReset).clock = s.clock := rfl
@[simp] theorem State.applyReset_resets (s : State) : (s.applyReset).resets = s.resets + 1 := rfl
@[simp] theorem State.applyReset_pend (s : State) : (s.applyReset).host.pend = false := rfl
@[simp] theorem State.applyReset_tickOn (s : State) : (s.applyReset).host.tickOn = false := rfl
@[simp] theorem State.applyReset_ctl (s : State) :
    (s.applyReset).host.ctl = bootStart s.params.bootScan := rfl
@[simp] theorem State.applyReset_buf (s : State) : (s.applyReset).host.buf = [] := rfl
@[simp] theorem State.applyReset_prog (s : State) : (s.applyReset).host.prog = s.host.prog := rfl
@[simp] theorem State.applyReset_reports (s : State) : (s.applyReset).host.reports = s.host.reports := rfl
@[simp] theorem State.applyReset_sink (s : State) : (s.applyReset).host.sink = s.host.sink := rfl
@[simp] theorem State.applyReset_reads (s : State) : (s.applyReset).host.reads = s.host.reads := rfl
@[simp] theorem State.applyReset_checks (s : State) : (s.applyReset).host.checks = s.host.checks := rfl
@[simp] theorem State.applyReset_returns (s : State) : (s.applyReset).host.returns = s.host.returns := rfl

/-! ### State.placeWord -/

@[simp] theorem State.placeWord_blk (s : State) (w : Word) : (s.placeWord w).blk = s.blk := rfl
@[simp] theorem State.placeWord_env (s : State) (w : Word) : (s.placeWord w).env = s.env := rfl
@[simp] theorem State.placeWord_trace (s : State) (w : Word) : (s.placeWord w).trace = s.trace := rfl
@[simp] theorem State.placeWord_params (s : State) (w : Word) : (s.placeWord w).params = s.params := rfl
@[simp] theorem State.placeWord_sched (s : State) (w : Word) : (s.placeWord w).sched = .host :: s.sched := rfl
@[simp] theorem State.placeWord_clock (s : State) (w : Word) : (s.placeWord w).clock = s.clock := rfl
@[simp] theorem State.placeWord_resets (s : State) (w : Word) : (s.placeWord w).resets = s.resets := rfl
@[simp] theorem State.placeWord_pend (s : State) (w : Word) : (s.placeWord w).host.pend = s.host.pend := rfl
@[simp] theorem State.placeWord_tickOn (s : State) (w : Word) : (s.placeWord w).host.tickOn = s.host.tickOn := rfl
@[simp] theorem State.placeWord_ctl (s : State) (w : Word) : (s.placeWord w).host.ctl = s.host.ctl := rfl
@[simp] theorem State.placeWord_buf (s : State) (w : Word) : (s.placeWord w).host.buf = s.host.buf := rfl
@[simp] theorem State.placeWord_prog (s : State) (w : Word) : (s.placeWord w).host.prog = .submit w :: s.host.prog := rfl
@[simp] theorem State.placeWord_reports (s : State) (w : Word) : (s.placeWord w).host.reports = s.host.reports := rfl
@[simp] theorem State.placeWord_sink (s : State) (w : Word) : (s.placeWord w).host.sink = s.host.sink := rfl
@[simp] theorem State.placeWord_reads (s : State) (w : Word) : (s.placeWord w).host.reads = s.host.reads := rfl
@[simp] theorem State.placeWord_checks (s : State) (w : Word) : (s.placeWord w).host.checks = s.host.checks := rfl
@[simp] theorem State.placeWord_returns (s : State) (w : Word) : (s.placeWord w).host.returns = s.host.returns := rfl

/-! ### Env.setPointer -/

@[simp] theorem Env.setPointer_kind (e : Env) (a : Addr) (p : Byte) : (e.setPointer a p).kind = e.kind := rfl
@[simp] theorem Env.setPointer_draws (e : Env) (a : Addr) (p : Byte) : (e.setPointer a p).draws = e.draws := rfl
@[simp] theorem Env.setPointer_dev (e : Env) (a : Addr) (p : Byte) : (e.setPointer a p).dev = e.dev := rfl
@[simp] theorem Env.setPointer_regs (e : Env) (a : Addr) (p : Byte) : (e.setPointer a p).regs = e.regs := rfl
@[simp] theorem Env.setPointer_ptrs (e : Env) (a : Addr) (p : Byte) : (e.setPointer a p).ptrs = e.ptrs.write a.toNat p := rfl
@[simp] theorem Env.setPointer_ro (e : Env) (a : Addr) (p : Byte) : (e.setPointer a p).ro = e.ro := rfl
@[simp] theorem Env.setPointer_sel (e : Env) (a : Addr) (p : Byte) : (e.setPointer a p).sel = e.sel := rfl
@[simp] theorem Env.setPointer_inject (e : Env) (a : Addr) (p : Byte) : (e.setPointer a p).inject = e.inject := rfl

/-! What each report sends to the byte sink. -/

@[simp] theorem Report.toSink_devicePresent (a : Addr) :
    (Report.devicePresent a).toSink = [.text (.devicePresent a)] := rfl
@[simp] theorem Report.toSink_written (c : CtrlReg) :
    (Report.written c).toSink = [.text (.written c)] := rfl
@[simp] theorem Report.toSink_readFailed (c : CtrlReg) (k : Code) :
    (Report.readFailed c k).toSink = [] := rfl
@[simp] theorem Report.toSink_writeFailed (c : CtrlReg) (k : Code) :
    (Report.writeFailed c k).toSink = [] := rfl
@[simp] theorem Report.toSink_busError (k : Code) : (Report.busError k).toSink = [] := rfl

/-- HSTATE is Idle where the host starts. -/
@[simp] theorem bootStart_hstate (scan : Bool) : (bootStart scan).hstate = .idle := by
  cases scan <;> rfl

end Sys2Proof.Machine
end

