-- ==== Sys2Proof/Laws/Ops.lean ====
section
/-! SUPPORT. What each shared operation can do, once: acceptance, the answer of the environment, the
TXC step, a host access. Later proofs cite these and do not unfold the operations. -/

namespace Sys2Proof.Machine

/-! ### Acceptance -/

theorem State.accept_idle (f : Block → Block) (s : State) (h : s.blk.busy = false) :
    s.accept f = .next { s with blk := f s.blk } := by
  simp [State.accept, State.withBlk, h]

theorem State.accept_busy (f : Block → Block) (s : State) (h : s.blk.busy = true) :
    s.accept f = .next { s with blk := s.blk.dropWrite } := by
  simp [State.accept, State.withBlk, h]

theorem execRdmulti_legal (a : Addr) (off count : Byte) (s : State) (h : countInRange count = true) :
    execRdmulti a off count s = s.accept (Block.acceptTxc (encode (.rdmulti a off count))) := by
  simp [execRdmulti, h]

theorem execRdmulti_illegal (a : Addr) (off count : Byte) (s : State)
    (h : countInRange count = false) :
    execRdmulti a off count s = s.accept (Block.acceptIllegal (encode (.rdmulti a off count))) := by
  simp [execRdmulti, h]

/-- What a write can do to the block, from a state with the block `b`. -/
inductive BlockWrite (b : Block) : Block → Prop where
  | same : BlockWrite b b
  | mode (v : Word) : BlockWrite b (b.writeMode v)
  | dropped : b.busy = true → BlockWrite b b.dropWrite
  | stored (rx : Vector Byte 8) : b.busy = false → BlockWrite b { b with rxbuf := rx }
  | txc (i : Instr) : b.busy = false → isTxc i = true → i.wellFormed = true →
      BlockWrite b (b.acceptTxc (encode i))
  | illegal (w : Word) : b.busy = false → (decodeWord w).toOption = none →
      BlockWrite b (b.acceptIllegal w)
  | decode (r : Vector Half 3) : b.busy = false →
      BlockWrite b ((b.acceptDecoder (encode .decode)).setRaw r)
  | scale (p : Vector Word 3) : b.busy = false →
      BlockWrite b ((b.acceptDecoder (encode .scale)).setPhys p)
  | frame (f : Vector Byte 14) (n : BitVec 4) : b.busy = false → n = 8 ∨ n = 14 →
      BlockWrite b ((b.acceptDecoder (encode .frame)).setFrame f n)

/-- An instruction that decoding can give is well formed. -/
theorem decodeWord_wellFormed (w : Word) (i : Instr) (h : decodeWord w = .ok i) :
    i.wellFormed = true := by
  unfold decodeWord whenUnusedZero at h
  grind [Instr.wellFormed]

theorem frameLength_eq (w : WidthSel) :
    frameLength (widthBytes w) = 8 ∨ frameLength (widthBytes w) = 14 := by
  cases w
  · exact .inl (by decide)
  · exact .inr (by decide)

/-- A well-formed instruction answers a next state that differs only in the block, by one of the
effects of `BlockWrite`. -/
theorem exec_effect (i : Instr) (s : State) (hw : i.wellFormed = true) :
    ∃ b, exec i s = .next { s with blk := b } ∧ BlockWrite s.blk b := by
  cases hb : s.blk.busy with
  | true =>
    refine ⟨s.blk.dropWrite, ?_, .dropped hb⟩
    cases i <;> simp only [exec, execProbe, execRdreg, execRdmulti, execWrreg, execDecode,
      execScale, execFrame, State.accept_busy _ _ hb, ite_self]
  | false =>
    cases i with
    | probe a => exact ⟨_, State.accept_idle _ _ hb, .txc (.probe a) hb rfl rfl⟩
    | rdreg a off => exact ⟨_, State.accept_idle _ _ hb, .txc (.rdreg a off) hb rfl rfl⟩
    | rdmulti a off count =>
      refine ⟨_, ?_, .txc (.rdmulti a off count) hb rfl hw⟩
      exact (execRdmulti_legal a off count s hw).trans (State.accept_idle _ _ hb)
    | wrreg a off val => exact ⟨_, State.accept_idle _ _ hb, .txc (.wrreg a off val) hb rfl rfl⟩
    | decode => exact ⟨_, State.accept_idle _ _ hb, .decode _ hb⟩
    | scale => exact ⟨_, State.accept_idle _ _ hb, .scale _ hb⟩
    | frame => exact ⟨_, State.accept_idle _ _ hb, .frame _ _ hb (frameLength_eq _)⟩

/-- A write of CMD differs only in the block. -/
theorem submitWord_effect (w : Word) (s : State) :
    ∃ b, submitWord w s = .next { s with blk := b } ∧ BlockWrite s.blk b := by
  unfold submitWord
  cases hd : decodeWord w with
  | ok i => exact exec_effect i s (decodeWord_wellFormed w i hd)
  | error e =>
    cases hb : s.blk.busy with
    | true => exact ⟨_, State.accept_busy _ _ hb, .dropped hb⟩
    | false =>
      exact ⟨_, State.accept_idle _ _ hb, .illegal w hb (by rw [hd]; rfl)⟩

/-- A host write of a register differs only in the block. -/
theorem writeReg_effect (r : Reg) (v : Word) (s : State) :
    ∃ b, writeReg r v s = .next { s with blk := b } ∧ BlockWrite s.blk b := by
  cases r with
  | cmd => exact submitWord_effect v s
  | mode => exact ⟨_, rfl, .mode v⟩
  | rxbuf i =>
    refine ⟨_, rfl, ?_⟩
    unfold Block.writeRxbuf
    split
    · exact .dropped ‹_›
    · exact .stored _ (Bool.eq_false_iff.mpr ‹_›)
  | stat => exact ⟨_, rfl, .same⟩
  | raw _ => exact ⟨_, rfl, .same⟩
  | phys _ => exact ⟨_, rfl, .same⟩
  | framelen => exact ⟨_, rfl, .same⟩
  | frame _ => exact ⟨_, rfl, .same⟩
  | reserved => exact ⟨_, rfl, .same⟩

/-- What a command does when its word is written: `exec`, for a well-formed instruction. -/
theorem submitWord_encode (i : Instr) (h : i.wellFormed = true) (s : State) :
    submitWord (encode i) s = exec i s := by
  unfold submitWord
  cases i <;> simp_all [encode, decodeWord, whenUnusedZero, Instr.wellFormed]

/-- The host reads the flags of the block in the STAT word. -/
theorem Block.stat_flags (b : Block) :
    statBusy b.stat = b.busy ∧ statCode b.stat = b.code ∧ statPresent b.stat = b.present := by
  unfold Block.stat
  generalize b.rxcnt = n
  revert n
  cases b.busy <;> cases b.done <;> cases b.code <;> cases b.present <;> cases b.ovr <;> decide

/-- The byte the host reads at `RXBUF[i]` is the byte there. -/
@[simp] theorem State.rxByte_eq (i : Fin 8) (s : State) : s.rxByte i = s.blk.rxbuf[i] := by
  simp only [State.rxByte, Block.readReg]
  ext j hj
  simp [hj, Nat.lt_trans hj (by decide : 8 < 32)]

@[simp] theorem State.statBusy_now (s : State) : statBusy s.statNow = s.blk.busy :=
  s.blk.stat_flags.1
@[simp] theorem State.statCode_now (s : State) : statCode s.statNow = s.blk.code :=
  s.blk.stat_flags.2.1
@[simp] theorem State.statPresent_now (s : State) : statPresent s.statNow = s.blk.present :=
  s.blk.stat_flags.2.2

/-- With no program placed the host takes a step of the Sampling Controller. -/
theorem agentStep_host_ctl (s : State) (h : s.host.prog = []) : agentStep .host s = ctlStep s := by
  simp [agentStep, hostStep, h]

/-- `t` is `s` but for the host side and one write to the block. -/
def HostEffect (s t : State) : Prop :=
  ∃ h b, t = { s with host := h, blk := b } ∧ BlockWrite s.blk b

theorem HostEffect.ofHost (s t : State) (h : t = { s with host := t.host }) : HostEffect s t :=
  ⟨t.host, s.blk, by rw [h], .same⟩

/-- A write after a change of the host side. -/
theorem HostEffect.after (s u t : State) (hu : u = { s with host := u.host })
    (b : Block) (ht : t = { u with blk := b }) (hb : BlockWrite u.blk b) : HostEffect s t := by
  refine ⟨u.host, b, ?_, ?_⟩
  · rw [ht, hu]
  · rw [hu] at hb
    exact hb

/-- If `hostWrite` answers a next state, it differs only in the block. -/
theorem hostWrite_effect (off width : Nat) (v : Word) (s t : State)
    (h : hostWrite off width v s = .next t) :
    ∃ b, t = { s with blk := b } ∧ BlockWrite s.blk b := by
  unfold hostWrite at h
  split at h
  · obtain ⟨b, hb, he⟩ := writeReg_effect _ v s
    rw [hb] at h
    cases h
    exact ⟨b, rfl, he⟩
  · cases h

/-- If `hostRead` answers a next state, it differs only in the host's record. -/
theorem hostRead_effect (off width : Nat) (s t : State) (h : hostRead off width s = .next t) :
    t = { s with host := t.host } := by
  unfold hostRead at h
  split at h <;> cases h
  rfl

/-- A command line differs only in the host side and one write to the block, when its two
continuations differ only in the host side. -/
theorem commandLine_effect (i : Instr) (p : CmdPoint) (g : CmdPoint → State → State)
    (k : Word → State → State) (s t : State)
    (hg : ∀ c u, g c u = { u with host := (g c u).host })
    (hk : ∀ v u, k v u = { u with host := (k v u).host })
    (h : commandLine i p g k s = .next t) : HostEffect s t := by
  cases p with
  | submit =>
    obtain ⟨b, hb, he⟩ := submitWord_effect (encode i) (g .wait s)
    simp only [commandLine, hb] at h
    cases h
    exact HostEffect.after s _ _ (hg _ _) b rfl he
  | wait =>
    simp only [commandLine] at h
    cases h
    apply HostEffect.ofHost
    rw [hg]
    rfl
  | stat =>
    simp only [commandLine] at h
    cases h
    apply HostEffect.ofHost
    rw [hk]
    rfl

theorem readbackStep_effect (a : Addr) (off : Byte) (p : ReadbackPoint) (s t : State)
    (h : readbackStep a off p s = .next t) : HostEffect s t := by
  cases p with
  | read1 q =>
    simp only [readbackStep] at h
    exact commandLine_effect _ _ _ _ _ _ (fun _ _ => rfl) (fun _ _ => rfl) h
  | byte1 ok =>
    cases h
    exact HostEffect.ofHost _ _ rfl
  | write v1 ok q =>
    simp only [readbackStep] at h
    exact commandLine_effect _ _ _ _ _ _ (fun _ _ => rfl) (fun _ _ => rfl) h
  | read2 v1 ok q =>
    simp only [readbackStep] at h
    exact commandLine_effect _ _ _ _ _ _ (fun _ _ => rfl) (fun _ _ => rfl) h
  | byte2 v1 ok =>
    cases h
    exact HostEffect.ofHost _ _ rfl

/-- The continuations of a bus call differ only in the host side. -/
theorem callAfter_host (c : BusCall) (v : Word) (u : State) :
    callAfter c v u = { u with host := (callAfter c v u).host } := by
  unfold callAfter
  split <;> rfl

theorem callByteAfter_host (c : BusCall) (v : Word) (i : Fin 8) (rx : List Byte) (u : State) :
    callByteAfter c v i rx u = { u with host := (callByteAfter c v i rx u).host } := by
  unfold callByteAfter
  split <;> rfl

theorem callStep_effect (c : BusCall) (p : CallPoint) (s t : State)
    (h : callStep c p s = .next t) : HostEffect s t := by
  cases p with
  | command q =>
    simp only [callStep] at h
    exact commandLine_effect _ _ _ _ _ _ (fun _ _ => rfl) (callAfter_host c) h
  | byte v i got =>
    cases h
    exact HostEffect.ofHost _ _ (callByteAfter_host c v i _ _)

theorem directiveStep_effect (d : Directive) (s t : State) (h : directiveStep d s = .next t) :
    HostEffect s t := by
  have hwrite : ∀ off width v, hostWrite off width v s = .next t → HostEffect s t := by
    intro off width v hw
    obtain ⟨b, hb, he⟩ := hostWrite_effect off width v s t hw
    exact ⟨s.host, b, hb, he⟩
  cases d with
  | submit w =>
    obtain ⟨b, hb, he⟩ := submitWord_effect w s
    simp only [directiveStep, hb] at h
    cases h
    exact ⟨s.host, b, rfl, he⟩
  | wait =>
    simp only [directiveStep] at h
    cases h
    apply HostEffect.ofHost
    split <;> rfl
  | setMode v =>
    simp only [directiveStep] at h
    exact hwrite _ _ _ h
  | ldrx i v =>
    simp only [directiveStep] at h
    exact hwrite _ _ _ h
  | rdStat =>
    simp only [directiveStep] at h
    exact HostEffect.ofHost _ _ (hostRead_effect _ _ _ _ h)
  | read off width =>
    simp only [directiveStep] at h
    exact HostEffect.ofHost _ _ (hostRead_effect _ _ _ _ h)
  | write off width v =>
    simp only [directiveStep] at h
    exact hwrite _ _ _ h
  | clearPend =>
    cases h
    exact HostEffect.ofHost _ _ rfl
  | readback a off p =>
    simp only [directiveStep] at h
    exact readbackStep_effect a off p s t h
  | call c p =>
    simp only [directiveStep] at h
    exact callStep_effect c p s t h

/-- `busAfter` and its companions differ only in the host side. -/
theorem scanAfter_host (a : Addr) (v : Word) (u : State) :
    scanAfter a v u = { u with host := (scanAfter a v u).host } := by
  unfold scanAfter
  cases statPresent v <;> rfl

theorem cfgReadAfter_host (c : CtrlReg) (v : Word) (u : State) :
    cfgReadAfter c v u = { u with host := (cfgReadAfter c v u).host } := by
  unfold cfgReadAfter
  split <;> rfl

theorem busAfter_host (h : HState) (c : CtlPoint) (v : Word) (u : State) :
    busAfter h c v u = { u with host := (busAfter h c v u).host } := by
  unfold busAfter
  split <;> rfl

theorem ctlStep_effect (s t : State) (h : ctlStep s = .next t) : HostEffect s t := by
  unfold ctlStep at h
  split at h
  · exact commandLine_effect _ _ _ _ _ _ (fun _ _ => rfl) (scanAfter_host _) h
  · exact commandLine_effect _ _ _ _ _ _ (fun _ _ => rfl) (cfgReadAfter_host _) h
  · cases h
    exact HostEffect.ofHost _ _ rfl
  · exact commandLine_effect _ _ _ _ _ _ (fun _ _ => rfl) (fun _ _ => rfl) h
  · obtain ⟨b, hb, he⟩ := hostWrite_effect _ _ _ _ _ h
    exact HostEffect.after s (s.goto .startTick) t rfl b hb he
  · cases h
    exact HostEffect.ofHost _ _ rfl
  · cases h
    apply HostEffect.ofHost
    split <;> rfl
  · exact commandLine_effect _ _ _ _ _ _ (fun _ _ => rfl) (busAfter_host _ _) h
  · cases h
    exact HostEffect.ofHost _ _ rfl
  · exact commandLine_effect _ _ _ _ _ _ (fun _ _ => rfl) (busAfter_host _ _) h
  · exact commandLine_effect _ _ _ _ _ _ (fun _ _ => rfl) (fun _ _ => rfl) h
  · exact commandLine_effect _ _ _ _ _ _ (fun _ _ => rfl) (fun _ _ => rfl) h
  · exact commandLine_effect _ _ _ _ _ _ (fun _ _ => rfl) (fun _ _ => rfl) h
  · cases h
    exact HostEffect.ofHost _ _ rfl
  · unfold frameByteStep at h
    split at h <;> cases h
    exact HostEffect.ofHost _ _ rfl
  · cases h
    exact HostEffect.ofHost _ _ rfl
  · cases h
    exact HostEffect.ofHost _ _ rfl

/-- If the host takes a step, only its own side changes, and the block by one write. -/
theorem hostStep_effect (s t : State) (h : hostStep s = .next t) : HostEffect s t := by
  unfold hostStep at h
  split at h
  · obtain ⟨h', b, ht, hb⟩ := directiveStep_effect _ _ _ h
    exact ⟨h', b, ht, hb⟩
  · exact ctlStep_effect s t h

/-! ### The environment -/

/-- The oracle answers inside the response set. -/
theorem oracleAnswer_allowed (n : Nat) (p : Prim) : p.allows (oracleAnswer n p) = true := by
  unfold oracleAnswer
  split
  · assumption
  · cases p <;> rfl

/-- The reference slave answers inside the response set. -/
theorem Env.reply_allowed (e : Env) (p : Prim) : p.allows (e.reply p).1 = true := by
  cases p with
  | start a d => by_cases h : a ∈ e.dev <;> simp [Env.reply, Env.address, h, Prim.allows]
  | restart a d => by_cases h : a ∈ e.dev <;> simp [Env.reply, Env.address, h, Prim.allows]
  | wbyte b => cases h : e.sel <;> simp [Env.reply, h, Prim.allows]
  | rbyte m => cases h : e.sel <;> simp [Env.reply, h, Prim.allows]
  | stop => rfl

/-- The environment answers inside the response set when it can only do so. -/
theorem answer_allowed (p : Prim) (n : Nat) (e : Env) (h : e.wellBehaved) :
    p.allows (answer p n e).1 = true := by
  unfold answer
  split
  · exact oracleAnswer_allowed _ _
  · rename_i hk
    obtain h | h := h
    · rw [h] at hk
      cases hk
    · rw [h]
      exact Env.reply_allowed e p

/-- Such an environment answers every state's next primitive inside its set. -/
theorem State.answersInSet_of_wellBehaved (s : State) (h : s.env.wellBehaved) : s.answersInSet :=
  fun _ p _ => answer_allowed p _ _ h

/-- The plain reference slave answers by its rules. -/
theorem answer_plainSlave (p : Prim) (n : Nat) (e : Env) (h : e.plainSlave) :
    answer p n e = e.reply p := by
  unfold answer
  rw [h.1, h.2]
  rfl

/-- Every operation on the slave's pointers keeps the canonical form. -/
theorem Env.canonical_setPointer (e : Env) (a : Addr) (p : Byte) (h : e.canonical) :
    (e.setPointer a p).canonical :=
  ⟨h.1, Memory.wf_write _ _ _ h.2⟩

/-- Every operation on the slave's registers keeps the canonical form. -/
theorem Env.canonical_storeReg (e : Env) (a : Addr) (off v : Byte) (h : e.canonical) :
    (e.storeReg a off v).canonical := by
  unfold Env.storeReg
  split
  · exact h
  · exact ⟨Memory.wf_write _ _ _ h.1, h.2⟩

/-- Answering keeps the canonical form. -/
theorem answer_canonical (p : Prim) (n : Nat) (e : Env) (h : e.canonical) :
    (answer p n e).2.canonical := by
  unfold answer
  split
  · exact h
  · split
    · unfold Env.injected
      split <;> exact h
    · cases p <;> simp only [Env.reply, Env.address] <;> try split
      all_goals first
        | exact h
        | exact Env.canonical_setPointer _ _ _ h
        | exact Env.canonical_setPointer _ _ _ (Env.canonical_storeReg _ _ _ _ h)

/-- `ptr_a` after it is set. -/
theorem Env.pointer_setPointer (e : Env) (h : e.canonical) (a : Addr) (p : Byte) :
    (e.setPointer a p).pointer a = p := by
  simp [Env.pointer, Env.setPointer, Memory.read_write _ _ _ h.2]

/-! ### The TXC step -/

/-- If the TXC step answers a next state, PHASE named a primitive of the command, the environment
answered it, and the phase's rule took the answer. -/
theorem txcStep_cases (s t : State) (h : txcStep s = .next t) :
    ∃ i p r e b, s.blk.command = some i ∧ nextPrim s.params i s.blk = some p ∧
      answer p s.trace.length s.env = (r, e) ∧ s.blk.respond i r = some b ∧
      t = { s with blk := b, env := e, trace := s.trace ++ [(p, r)] } := by
  unfold txcStep at h
  split at h
  · rename_i i p hp
    unfold State.pending at hp
    split at hp
    · rename_i hj
      obtain ⟨q, hq, he⟩ := Option.map_eq_some_iff.mp hp
      cases he
      unfold txcWith at h
      split at h
      · rename_i b hb
        cases h
        exact ⟨i, p, _, _, b, hj, hq, rfl, hb, rfl⟩
      · cases h
    · cases hp
  · cases h

/-- The TXC step, from its parts. -/
theorem txcStep_eq (s : State) (i : Instr) (p : Prim) (r : Response) (e : Env) (b : Block)
    (hc : s.blk.command = some i) (hp : nextPrim s.params i s.blk = some p)
    (ha : answer p s.trace.length s.env = (r, e)) (hb : s.blk.respond i r = some b) :
    txcStep s = .next { s with blk := b, env := e, trace := s.trace ++ [(p, r)] } := by
  simp [txcStep, State.pending, hc, hp, ha, txcWith, hb]

/-- The step of a busy TXC, from its parts. -/
theorem agentStep_txc_eq (s : State) (i : Instr) (p : Prim) (r : Response) (e : Env) (b : Block)
    (hbusy : s.blk.busy = true) (hc : s.blk.command = some i)
    (hp : nextPrim s.params i s.blk = some p) (ha : answer p s.trace.length s.env = (r, e))
    (hb : s.blk.respond i r = some b) :
    agentStep .txc s = .next { s with blk := b, env := e, trace := s.trace ++ [(p, r)] } := by
  simp only [agentStep, hbusy, if_true]
  exact txcStep_eq s i p r e b hc hp ha hb

/-- Runs of TXC steps compose. -/
theorem txcSteps_add (j k : Nat) (s t : State) (h : txcSteps j s = .next t) :
    txcSteps (j + k) s = txcSteps k t := by
  induction j generalizing s with
  | zero =>
    cases h
    rw [Nat.zero_add]
  | succ j ih =>
    rw [Nat.add_right_comm]
    simp only [txcSteps] at h ⊢
    cases hx : agentStep .txc s with
    | next u =>
      rw [hx] at h
      exact ih u h
    | fault f =>
      rw [hx] at h
      cases h
    | refused f =>
      rw [hx] at h
      cases h

/-- A phase takes every response of its primitive's set. -/
theorem Block.respond_allowed (q : Params) (i : Instr) (b : Block) (p : Prim) (r : Response)
    (hp : nextPrim q i b = some p) (hr : p.allows r = true) : ∃ b', b.respond i r = some b' := by
  unfold nextPrim at hp
  unfold Block.respond
  cases hph : b.phase <;> simp only [hph] at hp ⊢
  · cases hp
  · obtain ⟨a, -, rfl⟩ := Option.map_eq_some_iff.mp hp
    cases r <;> simp_all [phaseStart, Prim.allows]
  · obtain ⟨a, -, rfl⟩ := Option.map_eq_some_iff.mp hp
    cases r <;> simp_all [phaseOffset, Prim.allows]
  · obtain ⟨a, -, rfl⟩ := Option.map_eq_some_iff.mp hp
    cases r <;> simp_all [phaseWdata, Prim.allows]
  · split at hp
    · cases hp
    · obtain ⟨a, -, rfl⟩ := Option.map_eq_some_iff.mp hp
      cases r <;> simp_all [phaseRestart, Prim.allows]
  · split at hp <;> cases hp
    cases r <;> simp_all [phaseRdata, Prim.allows]
  · split at hp <;> cases hp
    cases r <;> simp_all [phaseStop, Prim.allows]

/-! ### One step of the machine -/

/-- If an agent takes a step: TXC issues a primitive or is idle, the host changes its own side and
writes the block at most once, the tick sets PEND, or reset is applied. -/
theorem agentStep_cases (a : Agent) (s t : State) (h : agentStep a s = .next t) :
    (a = .host ∧ HostEffect s t) ∨ (a = .txc ∧ s.blk.busy = true ∧ txcStep s = .next t) ∨
    (a = .txc ∧ s.blk.busy = false ∧ t = s) ∨
    (a = .tick ∧ t = { s with host := { s.host with pend := s.host.pend || s.host.tickOn } }) ∨
    (a = .reset ∧ t = s.applyReset) := by
  cases a with
  | host => exact .inl ⟨rfl, hostStep_effect s t h⟩
  | txc =>
    cases hb : s.blk.busy with
    | true =>
      simp only [agentStep, hb, if_true] at h
      exact .inr (.inl ⟨rfl, rfl, h⟩)
    | false =>
      simp only [agentStep, hb] at h
      cases h
      exact .inr (.inr (.inl ⟨rfl, rfl, rfl⟩))
  | tick =>
    refine .inr (.inr (.inr (.inl ⟨rfl, ?_⟩)))
    simp only [agentStep, tickStep] at h
    cases h
    cases ht : s.host.tickOn
    · rw [Bool.or_false]
      rfl
    · rw [Bool.or_true]
      rfl
  | reset =>
    refine .inr (.inr (.inr (.inr ⟨rfl, ?_⟩)))
    simp only [agentStep] at h
    cases h
    rfl

/-- A step is the step of the chosen agent, on a state that differs only in the schedule. -/
theorem step_cases (s t : State) (h : step s = .next t) :
    ∃ a l n, agentStep a { s with sched := l, clock := n } = .next t := by
  unfold step State.choose at h
  split at h
  · exact ⟨_, _, s.clock, h⟩
  · exact ⟨_, s.sched, s.clock + 1, h⟩

end Sys2Proof.Machine
end

