-- ==== Sys2Proof/Laws/Calls.lean ====
section
/-! SUPPORT. What a bus call returns, once: from the read of STAT of its command the host reads exactly
the bytes of RXBUF that 30_encoding.md R113 names, and records that rule's return value. -/

namespace Sys2Proof.Machine

/-! ### The results, by the code in STAT -/

/-- The result is told by CODE alone. -/
theorem busResult_stat {α : Type} (b : Block) (x : α) :
    busResult b.stat (some x) = match b.code with
      | .ok => some (.ok x)
      | .noack => some (.err .noAck)
      | .timeout => some (.err .timeout)
      | .illegal => none := by
  rw [busResult, b.stat_flags.2.1]
  rfl

/-- A bus call submits a legal command, whatever its arguments. -/
theorem BusCall.instr_wellFormed (c : BusCall) : c.instr.wellFormed = true := by
  cases c with
  | readRegistersMulti a off last => revert last; simp only [BusCall.instr, Instr.wellFormed]; decide
  | probe a => rfl
  | readRegister a off => rfl
  | writeRegister a off val => rfl

/-- `[byte; count]` fits RXBUF. -/
theorem BusCall.readCount_le (c : BusCall) : readCount c.instr ≤ 8 := by
  cases c with
  | readRegistersMulti a off last => revert last; simp only [BusCall.instr, readCount]; decide
  | probe a => exact Nat.zero_le _
  | readRegister a off => exact Nat.le_of_ble_eq_true rfl
  | writeRegister a off val => exact Nat.zero_le _

/-- The number of bytes of `read_registers_multi` is its count. -/
theorem readCount_readRegistersMulti (a : Addr) (off : Byte) (last : Fin 8) :
    readCount (BusCall.readRegistersMulti a off last).instr = last.val + 1 := by
  revert last; simp only [BusCall.instr, readCount]; decide

/-! ### The reads of RXBUF -/

/-- The host's step at the read of `RXBUF[i]`. -/
theorem agentStep_call_byte (s : State) (c : BusCall) (v : Word) (i : Fin 8) (got : List Byte)
    (rest : List Directive) (h : s.host.prog = .call c (.byte v i got) :: rest) :
    agentStep .host s = .next (callByteAfter c v i (got ++ [s.blk.rxbuf[i]])
      (({ s with host := { s.host with prog := rest } } : State).readRx i)) := by
  simp only [agentStep, hostStep, h, directiveStep, callStep, State.rxByte_eq]

/-- From the read of `RXBUF[i]`, `n` reads of consecutive bytes end the call: the return value is that
of the bytes so far and those. -/
theorem hostSteps_call_bytes (n : Nat) (s : State) (c : BusCall) (v : Word) (i : Fin 8)
    (got : List Byte) (rest : List Directive) (hn : i.val + n + 1 = readCount c.instr)
    (h : s.host.prog = .call c (.byte v i got) :: rest) :
    ∃ t, hostSteps (n + 1) s = .next t ∧ t.blk = s.blk ∧ t.host.prog = rest ∧
      t.host.returns = s.host.returns ++
        [(c, returnValue c v (got ++ (s.blk.rxbuf.toList.drop i.val).take (n + 1)))] := by
  have hi : i.val < s.blk.rxbuf.toList.length := by simp
  have hcons : s.blk.rxbuf.toList.drop i.val =
      s.blk.rxbuf[i] :: s.blk.rxbuf.toList.drop (i.val + 1) := by
    rw [List.drop_eq_getElem_cons hi]
    simp
  induction n generalizing s i got with
  | zero =>
    refine ⟨_, by simp only [hostSteps, agentStep_call_byte s c v i got rest h]; rfl, ?_⟩
    have hend : ¬ i.val + 1 < readCount c.instr := by omega
    rw [hcons]
    simp [callByteAfter, hend, State.readRx]
  | succ n ih =>
    have hmore : i.val + 1 < readCount c.instr := by omega
    have hle := c.readCount_le
    have hnext : (i + 1).val = i.val + 1 := by
      rw [Fin.val_add_one_of_lt']
      omega
    obtain ⟨t, ht, hb, hp, hr⟩ := ih
      (callByteAfter c v i (got ++ [s.blk.rxbuf[i]])
        (({ s with host := { s.host with prog := rest } } : State).readRx i))
      (i + 1) (got ++ [s.blk.rxbuf[i]]) (by omega)
      (by simp [callByteAfter, hmore, State.readRx, State.push])
      (by simp)
      (by rw [List.drop_eq_getElem_cons (by simp)]; simp)
    refine ⟨t, ?_, ?_, hp, ?_⟩
    · rw [hostSteps, agentStep_call_byte s c v i got rest h]
      exact ht
    · rw [hb]
      simp [callByteAfter, hmore, State.readRx]
    · rw [hr, hcons, hnext]
      simp [callByteAfter, hmore, State.readRx]

/-! ### What a call returns -/

/-- From the read of STAT of a bus call, one host step and, when `CODE = 0`, one more for each byte the
call returns: the block is unchanged and the recorded value is that of R113. -/
theorem hostSteps_call (s : State) (c : BusCall) (rest : List Directive)
    (h : s.host.prog = .call c (.command .stat) :: rest) :
    ∃ t, hostSteps (1 + if s.blk.code = .ok then readCount c.instr else 0) s = .next t ∧
      t.blk = s.blk ∧ t.host.prog = rest ∧
      t.host.returns = s.host.returns ++ [(c, returnValue c s.blk.stat
        (if s.blk.code = .ok then s.blk.rxbuf.toList.take (readCount c.instr) else []))] := by
  have hstep : agentStep .host s = .next (callAfter c s.blk.stat
      ({ s with host := { s.host with prog := rest } } : State).readStat) := by
    simp only [agentStep, hostStep, h, directiveStep, callStep, commandLine]
    rfl
  have hcode := s.blk.stat_flags.2.1
  by_cases hmore : s.blk.code = .ok ∧ 0 < readCount c.instr
  · obtain ⟨n, hn⟩ : ∃ n, readCount c.instr = n + 1 := ⟨readCount c.instr - 1, by omega⟩
    have hafter : callAfter c s.blk.stat
        ({ s with host := { s.host with prog := rest } } : State).readStat =
        State.push (.call c (.byte s.blk.stat 0 []))
          ({ s with host := { s.host with prog := rest } } : State).readStat := by
      rw [callAfter, if_pos ⟨hcode.trans hmore.1, hmore.2⟩]
    obtain ⟨t, ht, hb, hp, hr⟩ := hostSteps_call_bytes n
      (State.push (.call c (.byte s.blk.stat 0 []))
        ({ s with host := { s.host with prog := rest } } : State).readStat)
      c s.blk.stat 0 [] rest (by simp [hn]) rfl
    refine ⟨t, ?_, hb, hp, ?_⟩
    · rw [if_pos hmore.1, hn, Nat.add_comm 1, hostSteps, hstep, hafter]
      exact ht
    · rw [hr, if_pos hmore.1, hn]
      rfl
  · have hzero : (if s.blk.code = .ok then readCount c.instr else 0) = 0 := by
      split
      · exact Nat.eq_zero_of_not_pos fun hp => hmore ⟨‹_›, hp⟩
      · rfl
    have hbytes : (if s.blk.code = .ok then s.blk.rxbuf.toList.take (readCount c.instr) else []) =
        [] := by
      split
      · rw [if_pos ‹_›] at hzero
        rw [hzero]
        rfl
      · rfl
    have hafter : callAfter c s.blk.stat
        ({ s with host := { s.host with prog := rest } } : State).readStat =
        State.logReturn c (returnValue c s.blk.stat [])
          ({ s with host := { s.host with prog := rest } } : State).readStat := by
      rw [callAfter, if_neg fun hc => hmore ⟨hcode.symm.trans hc.1, hc.2⟩]
    rw [hzero, hbytes, hostSteps, hstep, hafter]
    exact ⟨_, rfl, rfl, rfl, rfl⟩

/-- `read_registers_multi` returns `Ok(RXBUF[0..count-1])` when `CODE = 0`, else the error; `CODE = 3`
has no counterpart (30_encoding.md R113). -/
theorem hostSteps_readRegistersMulti (s : State) (a : Addr) (off : Byte) (last : Fin 8)
    (rest : List Directive)
    (h : s.host.prog = .call (.readRegistersMulti a off last) (.command .stat) :: rest) :
    ∃ k t, hostSteps k s = .next t ∧ t.blk = s.blk ∧ t.host.prog = rest ∧
      t.host.returns = s.host.returns ++ [(.readRegistersMulti a off last, match s.blk.code with
        | .ok => some (.bytes (.ok (s.blk.rxbuf.toList.take (last.val + 1))))
        | .noack => some (.bytes (.err .noAck))
        | .timeout => some (.bytes (.err .timeout))
        | .illegal => none)] := by
  obtain ⟨t, ht, hb, hp, hr⟩ := hostSteps_call s _ rest h
  refine ⟨_, t, ht, hb, hp, ?_⟩
  rw [hr, readCount_readRegistersMulti, returnValue, busResult_stat]
  cases s.blk.code <;> rfl

end Sys2Proof.Machine
end

