-- ==== Sys2Proof/Laws/PerInstr.lean ====
section
/-! SUPPORT. Statements made instruction by instruction: the word of an instruction lies in its row of
the opcode table. -/

namespace Sys2Proof.Laws.TableRow

/-- The word of the instruction has the row's bits under the row's mask (30_encoding.md R104). -/
def Statement (i : Instr) : Prop := encode i &&& i.rowMask = i.rowMatch

/-- The mask that keeps `OP` and `RSV` and, of the other fields, the given bits. -/
def packMask (a : Addr) (off arg : Byte) : Word := 0xF#4 ++ 0x1F#5 ++ a ++ off ++ arg

/-- A packed word under such a mask, field by field. -/
theorem pack_and_mask (op : BitVec 4) (a ma : Addr) (off moff arg marg : Byte) :
    packWord op a off arg &&& packMask ma moff marg =
      packWord op (a &&& ma) (off &&& moff) (arg &&& marg) := by
  unfold packWord packMask
  rw [BitVec.and_append, BitVec.and_append, BitVec.and_append, BitVec.and_append,
    show op &&& 0xF#4 = op from BitVec.and_allOnes, show (0 : BitVec 5) &&& 0x1F#5 = 0 from rfl]

theorem probe (a : Addr) : Statement (.probe a) :=
  (pack_and_mask 1 a 0#7 0 0xFF 0 0xFF).trans (by rw [BitVec.and_zero]; rfl)

theorem rdreg (a : Addr) (off : Byte) : Statement (.rdreg a off) :=
  (pack_and_mask 2 a 0#7 off 0#8 0 0xFF).trans (by rw [BitVec.and_zero, BitVec.and_zero]; rfl)

theorem rdmulti (a : Addr) (off count : Byte) : Statement (.rdmulti a off count) :=
  (pack_and_mask 3 a 0#7 off 0#8 count 0#8).trans
    (by rw [BitVec.and_zero, BitVec.and_zero, BitVec.and_zero]; rfl)

theorem wrreg (a : Addr) (off val : Byte) : Statement (.wrreg a off val) :=
  (pack_and_mask 4 a 0#7 off 0#8 val 0#8).trans
    (by rw [BitVec.and_zero, BitVec.and_zero, BitVec.and_zero]; rfl)

theorem decode : Statement .decode := rfl

theorem scale : Statement .scale := rfl

theorem frame : Statement .frame := rfl

end Sys2Proof.Laws.TableRow
end

