-- ==== Sys2Proof/Tests/Slice0.lean ====
section
/-! SUPPORT. Tests: the operand check, words written out bit by bit from 30_encoding.md, single steps
with results from 95_test_vectors.md, and for every statement with hypotheses a witness that meets
them together. -/

open Sys2Proof Sys2Proof.Machine

namespace Sys2Proof.Tests

/-! ### Small states -/

/-- An idle block with known contents. -/
def blank : Block where
  cmdreg := 0
  busy := false
  done := false
  code := .ok
  present := false
  ovr := false
  rxcnt := 0
  modeSel := false
  rxbuf := #v[0x00, 0x10, 0xFF, 0xFF, 0x00, 0x80, 0xEE, 0xEE]
  raw := #v[0, 0, 0]
  phys := #v[0, 0, 0]
  framelen := 0
  frame := #v[0, 0, 0, 0, 0, 0, 0, 0, 0, 0, 0, 0, 0, 0]
  phase := .idle
  idx := 0
  pcode := .ok

/-- Parameters with known values. -/
def params : Params :=
  { defaultParams with
    offWhoAmI := 0x0F, offStatus := 0x27, offCtrl1 := 0x20, offCtrl4 := 0x23, offOut := 0x28,
    whoAmIValue := 0x33, ctrl1Target := 0x57, ctrl4Target := 0x00, timeoutBudget := 1000, bootMode := true,
    bootScan := true }

/-- The reference slave with one device and one register. -/
def slave : Env := { Env.initial with kind := .reference, dev := [0x18], regs := [(6183, 0x08)] }

/-- An idle machine with a given block and host position. -/
def machine (b : Block) (c : CtlPoint) : State :=
  { State.reset with
    blk := b, env := slave, params := params, host := { HostSide.initial with ctl := c } }

/-- An idle machine. -/
def idle : State := machine blank .idle

/-- The block in the middle of a command. -/
def inPhase (i : Instr) (p : Phase) : Block :=
  { blank with cmdreg := encode i, busy := true, phase := p }

/-- A machine in the middle of a command. -/
def busyIn (i : Instr) (p : Phase) : State := machine (inPhase i p) .idle

/-- The block after a step. -/
def blkOf : StepOutcome → Option Block
  | .next t => some t.blk
  | .fault _ => none
  | .refused _ => none

/-- The environment after a step. -/
def envOf : StepOutcome → Option Env
  | .next t => some t.env
  | .fault _ => none
  | .refused _ => none

/-- The block of `s` is busy in a phase of a command and the environment answers the primitive. -/
def inStep (i : Instr) (ph : Phase) (p : Prim) (r : Response) (s : State) : Bool :=
  s.blk.busy && s.blk.phase == ph && s.blk.command == some i &&
    (answer p s.trace.length s.env).1 == r

/-- A state with another environment. -/
def withEnv (e : Env) (s : State) : State := { s with env := e }

/-- The slave, with a timeout injected at the next primitive. -/
def mute : Env := { slave with inject := [(0, .timeout)] }

/-- The slave, with a NACK injected at the next primitive. -/
def nackStart : Env := { slave with inject := [(0, .nack)] }

/-! ### The operand check -/

theorem test_wf_probe : (Instr.probe 127).wellFormed = true := by decide
theorem test_wf_rdmulti : (Instr.rdmulti 0x18 0xFC 8).wellFormed = true := by decide
theorem test_ill_formed_count_0 : (Instr.rdmulti 0x18 0x28 0).wellFormed = false := by decide
theorem test_ill_formed_count_9 : (Instr.rdmulti 0x18 0x28 9).wellFormed = false := by decide
theorem test_ill_formed_count_255 : (Instr.rdmulti 0x18 0x28 255).wellFormed = false := by decide

/-! ### Words written out from 30_encoding.md R102 and R104: OP, RSV, A, OFF, ARG -/

theorem test_word_probe :
    decodeWord 0b0001_00000_0011000_00000000_00000000 = .ok (.probe 0x18) := by decide
theorem test_word_rdreg :
    decodeWord 0b0010_00000_0011000_00100111_00000000 = .ok (.rdreg 0x18 0x27) := by decide
theorem test_word_rdmulti :
    decodeWord 0b0011_00000_0011000_11111100_00001000 = .ok (.rdmulti 0x18 0xFC 8) := by decide
theorem test_word_wrreg :
    decodeWord 0b0100_00000_0011000_00100000_01010111 = .ok (.wrreg 0x18 0x20 0x57) := by decide
theorem test_word_decode :
    decodeWord 0b1000_00000_0000000_00000000_00000000 = .ok .decode := by decide
theorem test_word_scale :
    decodeWord 0b1001_00000_0000000_00000000_00000000 = .ok .scale := by decide
theorem test_word_frame :
    decodeWord 0b1010_00000_0000000_00000000_00000000 = .ok .frame := by decide

/-- Words of vector V2, one per reason. -/
theorem test_word_op_zero : decodeWord 0x00000000 = .error .unusedOpcode := by decide
theorem test_word_rsv_bit_27 : decodeWord 0x18180000 = .error .reservedNotZero := by decide
theorem test_word_rsv_bit_23 : decodeWord 0x40982057 = .error .reservedNotZero := by decide
theorem test_word_probe_off : decodeWord 0x10180100 = .error .unusedFieldNotZero := by decide
theorem test_word_scale_a : decodeWord 0x90180000 = .error .unusedFieldNotZero := by decide
theorem test_word_count_255 : decodeWord 0x301828FF = .error .countOutOfRange := by decide

/-! ### Single steps, from 95_test_vectors.md -/

/-- V37: STAT after the acceptance of a TXC command. -/
theorem test_rdreg_accepted :
    (blkOf (exec (.rdreg 0x18 0x27) idle)).map Block.stat = some 0x00000001 := by decide
/-- V37: a CMD write while BUSY. -/
theorem test_wrreg_dropped :
    (blkOf (exec (.wrreg 0x18 0x20 0x57) (busyIn (.rdreg 0x18 0x27) .pOffset))).map
      (fun b => (b.stat, b.cmdreg)) = some (0x00000021, 0x20182700) := by decide
/-- V10: the START of PROBE at a present device. -/
theorem test_probe_ack :
    (blkOf (agentStep .txc (busyIn (.probe 0x18) .pStart))).map (fun b => (b.present, b.phase)) =
      some (true, .pStop) := by decide
/-- V11: the START of PROBE at an absent device. -/
theorem test_probe_nack :
    (blkOf (agentStep .txc (busyIn (.probe 0x19) .pStart))).map
      (fun b => (b.present, b.pcode, b.phase)) = some (false, .noack, .pStop) := by decide
/-- V33: RDMULTI alone applies `AUTOINC_MASK`. -/
theorem test_rdmulti_autoinc :
    offsetByte { params with autoincMask := 0x80 } (.rdmulti 0x18 0x28 2) = some 0xA8 := by decide
/-- V30: the last byte of RDMULTI is not acknowledged. -/
theorem test_rdmulti_last_byte :
    nextPrim params (.rdmulti 0x18 0x28 3)
      { inPhase (.rdmulti 0x18 0x28 3) .pRdata with idx := 2 } = some (.rbyte false) := by decide
/-- V35: the data byte of WRREG at the reference slave; the pointer moves on. -/
theorem test_wrreg_stores :
    (envOf (agentStep .txc { busyIn (.wrreg 0x18 0x20 0x57) .pWdata with
      env := { slave with sel := .writeData 0x18, ptrs := [(0x18, 0x20)] } })).map
        (fun e => (e.slaveReg 0x18 0x20, e.pointer 0x18)) = some (0x57, 0x21) := by decide
/-- V2: an illegal word gives STAT 0x0000000E. -/
theorem test_illegal_word :
    (blkOf (hostWrite 0x00 4 0x50000000 idle)).map (fun b => (b.stat, b.cmdreg)) =
      some (0x0000000E, 0x50000000) := by decide
/-- V41 with `MODE.SEL = 1`. -/
theorem test_decode_shift_4 :
    (blkOf (exec .decode (machine { blank with modeSel := true } .idle))).map Block.raw =
      some #v[0x0100, 0xFFFF, 0xF800] := by decide
/-- V41 with `MODE.SEL = 0`. -/
theorem test_decode_shift_6 :
    (blkOf (exec .decode idle)).map Block.raw = some #v[0x0040, 0xFFFF, 0xFE00] := by decide
/-- V51 with `QUANT = TRUNC`. -/
theorem test_scale_ms2_trunc :
    (blkOf (exec .scale (machine
      { blank with modeSel := true, raw := #v[0x0100, 0xFFFF, 0xF800] } .idle))).map Block.phys =
      some #v[0x0000139C, 0xFFFFFFED, 0xFFFF631B] := by decide
/-- V51 with `QUANT = NEAREST`. -/
theorem test_scale_ms2_nearest :
    physOf { params with quant := .nearest } hires12Ms2 #v[0x0100, 0xFFFF, 0xF800] =
      #v[0x0000139D, 0xFFFFFFEC, 0xFFFF631B] := by decide
/-- V60: the 16-bit frame. -/
theorem test_frame_16 :
    (blkOf (exec .frame (machine
      { blank with phys := #v[0x00000100, 0xFFFFFFFC, 0xFFFFF800] } .idle))).map
      (fun b => (b.framelen, b.frame.toList.take 8)) =
      some (8, [0xA0, 0x00, 0x01, 0xFC, 0xFF, 0x00, 0xF8, 0xC0]) := by decide
/-- V61: the 32-bit frame. -/
theorem test_frame_32 :
    (blkOf (exec .frame (machine
      { blank with modeSel := true, phys := #v[0x0000139C, 0xFFFFFFED, 0xFFFF631B] } .idle))).map
      (fun b => (b.framelen, b.frame.toList)) =
      some (14, [0xA0, 0x9C, 0x13, 0x00, 0x00, 0xED, 0xFF, 0xFF, 0xFF, 0x1B, 0x63, 0xFF, 0xFF,
        0xC0]) := by decide
/-- V70: RAW reads sign-extended. -/
theorem test_raw_read :
    ({ blank with raw := #v[0, 0, 0xF800] }).readReg (.raw 2) = 0xFFFFF800 := by decide

/-! ### The slave register space and reset -/

theorem test_reset_memory : State.reset.env.regs.wf := by decide
theorem test_slave_memory : slave.regs.wf := by decide
theorem test_write_blank_unlists : Memory.write [(6183, 0x08)] 6183 0x00 = [] := by decide
theorem test_reset_stat : State.reset.blk.stat = 0 := by decide

/-! ### The host's two checks, on one word -/

theorem test_table_word : decodeTableWord 32 0x30182806 = some (.rdmulti 0x18 0x28 6) := by decide
theorem test_first_instruction :
    step (State.reset.withFetchWord 32 0x20182700) = exec (.rdreg 0x18 0x27) State.reset := rfl

/-- A scan result is a string for the byte sink; a bus error sends it nothing (program P3: zero bytes). -/
theorem test_report_kinds :
    (idle.report (.devicePresent 0x18)).host.sink = [.text (.devicePresent 0x18)] ∧
    (idle.report (.busError .noack)).host.sink = [] ∧
    (idle.report (.busError .noack)).host.reports = [.busError .noack] := by decide

/-- R113 on the STAT words of 40_transactions.md R142 (its example), P3, a timeout and V2. -/
theorem test_multi_read_result :
    let c := BusCall.readRegistersMulti 0x18 0x28 5
    encode c.instr = 0x30182806 ∧
    returnValue c 0x00000602 [0x00, 0x10, 0xFF, 0xFF, 0x00, 0x80] =
      some (.bytes (.ok [0x00, 0x10, 0xFF, 0xFF, 0x00, 0x80])) ∧
    returnValue c 0x00000006 [] = some (.bytes (.err .noAck)) ∧
    returnValue c 0x0000000A [] = some (.bytes (.err .timeout)) ∧
    returnValue c 0x0000000E [] = none := by decide

/-- R113 for the other three functions, on the STAT words of their rules' examples (40_transactions.md
R140, R141, R143). -/
theorem test_bus_results :
    returnValue (.probe 0x18) 0x00000012 [] = some (.present true) ∧
    returnValue (.probe 0x19) 0x00000006 [] = some (.present false) ∧
    returnValue (.readRegister 0x18 0x27) 0x00000102 [0x08] = some (.byte (.ok 0x08)) ∧
    returnValue (.writeRegister 0x18 0x20 0x57) 0x00000002 [] = some (.unit (.ok ())) := by decide

/-! ### Witnesses -/

theorem test_inv_idle : idle.Inv :=
  ⟨by constructor <;> simp [idle, machine, blank],
    by unfold Env.canonical; decide⟩

theorem test_inv_busy : (busyIn (.rdreg 0x18 0x27) .pStart).Inv := by
  refine ⟨⟨by decide, by decide, fun _ => ⟨.rdreg 0x18 0x27, by decide, by decide⟩, by decide,
    by decide, by decide, by decide, by decide, by decide, by decide⟩, ?_⟩
  unfold Env.canonical
  decide

theorem test_wit_well_behaved : slave.wellBehaved ∧ Env.initial.wellBehaved :=
  ⟨.inr rfl, .inl rfl⟩

theorem test_wit_plain_slave : slave.plainSlave ∧ slave.canonical :=
  ⟨⟨rfl, rfl⟩, by unfold Env.canonical; decide⟩

theorem test_wit_EncodedInstructionDecodesBack :
    (Instr.rdmulti 0x18 0x28 1).wellFormed = true ∧ (Instr.rdmulti 0x18 0x28 8).wellFormed = true ∧
    Instr.frame.wellFormed = true := by decide

theorem test_wit_CommandWordHasOneMeaning :
    decodeWord 0x30182808 = .ok (.rdmulti 0x18 0x28 8) := by decide

theorem test_wit_TxcCommandIsAccepted :
    idle.blk.busy = false ∧
    ∀ i ∈ [Instr.probe 0x18, .rdreg 0x18 0x27, .rdmulti 0x18 0x28 8, .wrreg 0x18 0x20 0x57],
      isTxc i = true ∧ i.wellFormed = true := by decide

theorem test_wit_IllegalWordIsAccepted :
    decodeWord 0x30182809 = .error .countOutOfRange ∧ idle.blk.busy = false := by decide

theorem test_wit_RdmultiCountOutOfRangeIsIllegal :
    (0 : Byte).toNat = 0 ∧ 8 < (9 : Byte).toNat ∧ idle.blk.busy = false := by decide

theorem test_wit_BusyWritesAreDropped :
    (busyIn (.rdreg 0x18 0x27) .pOffset).blk.busy = true ∧ idle.blk.busy = false := by decide

/-- For InstructionWhileBusyIsDropped, and the inner hypothesis of NoInstructionStops. -/
theorem test_wit_InstructionWhileBusyIsDropped :
    (busyIn (.wrreg 0x18 0x20 0x57) .pStop).blk.busy = true ∧ idle.blk.busy = false := by decide

theorem test_wit_InstructionFrame :
    exec .decode idle = .next (idle.withBlk fun b =>
      (b.acceptDecoder 0x80000000).setRaw #v[0x0040, 0xFFFF, 0xFE00]) := rfl

/-- For the decoder statements whose one hypothesis is an idle block. -/
theorem test_wit_DecoderCommands :
    idle.blk.busy = false ∧ (machine { blank with modeSel := true } .idle).blk.busy = false := by
  decide

theorem test_wit_RawSampleRangeAfterDecode_6 :
    idle.blk.busy = false ∧
    6 = shiftPlaces (modeRow idle.params.modeTable idle.blk.modeSel).shift := by decide

theorem test_wit_RawSampleRangeAfterDecode_4 :
    (machine { blank with modeSel := true } .idle).blk.busy = false ∧
    4 = shiftPlaces (modeRow params.modeTable
      (machine { blank with modeSel := true } .idle).blk.modeSel).shift := by decide

theorem test_wit_ScaleDoesNotOverflow :
    (machine { blank with raw := #v[0xF800, 0x0800, 0x0000] } .idle).blk.busy = false ∧
    (∀ i : Fin 3, ((machine { blank with raw := #v[0xF800, 0x0800, 0x0000] } .idle).blk.raw[i]
      ).toInt.natAbs ≤ 2048) ∧ idle.params.gMilli ≤ 9806 := by decide

/-- For RequantisationAccuracy, the tie: 125 digits at 2 mg are 2451.5, which NEAREST makes 2452. -/
theorem test_wit_RequantisationAccuracy :
    (2451500 : Int) = 125 * sensMg .two * (9806 : Nat) ∧ (2451500 : Int).natAbs % 1000 = 500 ∧
    scaleValue .nearest 9806 .ms2 2 125 = 2452 ∧ scaleValue .nearest 9806 .ms2 2 (-125) = -2452 := by
  decide

/-- For FrameLaysOutTheSamples, `w = 2` and `w = 4`. -/
theorem test_wit_FrameLaysOutTheSamples :
    idle.blk.busy = false ∧
    2 = widthBytes (modeRow idle.params.modeTable idle.blk.modeSel).width ∧
    (machine { blank with modeSel := true } .idle).blk.busy = false ∧
    4 = widthBytes (modeRow params.modeTable
      (machine { blank with modeSel := true } .idle).blk.modeSel).width := by decide

/-- Two states that agree on the inputs of axis 1 and differ on those of axis 0. -/
theorem test_wit_AxesDoNotInteract :
    let u := machine { blank with
      rxbuf := #v[1, 2, 0xFF, 0xFF, 0, 0, 0, 0], raw := #v[9, 0, 9], phys := #v[9, 0, 9] } .idle
    idle.blk.busy = false ∧ u.blk.busy = false ∧ idle.params = u.params ∧
    idle.blk.modeSel = u.blk.modeSel ∧ idle.blk.rxbuf[2] = u.blk.rxbuf[2] ∧
    idle.blk.rxbuf[3] = u.blk.rxbuf[3] ∧ idle.blk.raw[1] = u.blk.raw[1] ∧
    idle.blk.phys[1] = u.blk.phys[1] := ⟨rfl, rfl, rfl, rfl, rfl, rfl, rfl, rfl⟩

/-- For DecodeAllEncodesTheSample, axis 2 in the 16-bit format: bytes 00 80 give -2048 mg. -/
theorem test_wit_DecodeAllEncodesTheSample_16 :
    idle.blk.busy = false ∧
    (modeRow idle.params.modeTable idle.blk.modeSel).width = .two ∧
    (modeRow idle.params.modeTable idle.blk.modeSel).unit = .mg ∧
    (-2048 : Int) = scaleValue idle.params.quant idle.params.gMilli .mg 4
      (Int.fdiv (BitVec.toInt (idle.blk.rxbuf[5] ++ idle.blk.rxbuf[4])) (2 ^ 6)) := by decide

/-- The same in the 32-bit format: -40165. -/
theorem test_wit_DecodeAllEncodesTheSample_32 :
    let s := machine { blank with modeSel := true } .idle
    s.blk.busy = false ∧ (modeRow s.params.modeTable s.blk.modeSel).width = .four ∧
    s.params.gMilli ≤ 9806 ∧ (-40165 : Int) = scaleValue s.params.quant s.params.gMilli .ms2 2
      (Int.fdiv (BitVec.toInt (s.blk.rxbuf[5] ++ s.blk.rxbuf[4])) (2 ^ 4)) := by decide

theorem test_wit_StartPhase :
    busAddr (.probe 0x18) = some 0x18 ∧
    inStep (.probe 0x18) .pStart (.start 0x18 .w) .ack (busyIn (.probe 0x18) .pStart) = true ∧
    inStep (.rdreg 0x18 1) .pStart (.start 0x18 .w) .ack (busyIn (.rdreg 0x18 1) .pStart) = true ∧
    inStep (.probe 0x19) .pStart (.start 0x19 .w) .nack (busyIn (.probe 0x19) .pStart) = true ∧
    inStep (.probe 0x18) .pStart (.start 0x18 .w) .timeout
      (withEnv mute (busyIn (.probe 0x18) .pStart)) = true := by decide

theorem test_wit_OffsetPhase :
    let e := { slave with sel := .writeFirst 0x18 }
    inStep (.rdreg 0x18 0x27) .pOffset (.wbyte 0x27) .ack
      (withEnv e (busyIn (.rdreg 0x18 0x27) .pOffset)) = true ∧
    inStep (.rdmulti 0x18 0x28 6) .pOffset (.wbyte (0x28 ||| params.autoincMask)) .ack
      (withEnv e (busyIn (.rdmulti 0x18 0x28 6) .pOffset)) = true ∧
    inStep (.wrreg 0x18 0x20 1) .pOffset (.wbyte 0x20) .ack
      (withEnv e (busyIn (.wrreg 0x18 0x20 1) .pOffset)) = true ∧
    inStep (.rdreg 0x18 0x27) .pOffset (.wbyte 0x27) .nack
      (busyIn (.rdreg 0x18 0x27) .pOffset) = true ∧
    inStep (.rdreg 0x18 0x27) .pOffset (.wbyte 0x27) .timeout
      (withEnv mute (busyIn (.rdreg 0x18 0x27) .pOffset)) = true := by decide

theorem test_wit_WriteDataPhase :
    let i := Instr.wrreg 0x18 0x20 0x57
    inStep i .pWdata (.wbyte 0x57) .ack
      (withEnv { slave with sel := .writeData 0x18 } (busyIn i .pWdata)) = true ∧
    inStep i .pWdata (.wbyte 0x57) .nack (busyIn i .pWdata) = true ∧
    inStep i .pWdata (.wbyte 0x57) .timeout (withEnv mute (busyIn i .pWdata)) = true := by decide

theorem test_wit_RestartPhase :
    let i := Instr.rdmulti 0x18 0x28 6
    inStep i .pRestart (.restart 0x18 .r) .ack (busyIn i .pRestart) = true ∧
    inStep (.rdreg 0x19 1) .pRestart (.restart 0x19 .r) .nack
      (busyIn (.rdreg 0x19 1) .pRestart) = true ∧
    inStep i .pRestart (.restart 0x18 .r) .timeout (withEnv mute (busyIn i .pRestart)) = true := by
  decide

/-- RDREG's one byte is the last. -/
theorem test_wit_ReadDataPhase_rdreg :
    let s := withEnv { slave with sel := .read 0x18, ptrs := [(0x18, 0x27)] }
      (busyIn (.rdreg 0x18 0x27) .pRdata)
    inStep (.rdreg 0x18 0x27) .pRdata (.rbyte false) (.data 0x08) s = true ∧
    s.blk.idx.toNat < 1 ∧ (false = false ↔ s.blk.idx.toNat = 1 - 1) := by decide

/-- RDMULTI of 8 bytes: the last byte, the one before it, and a timeout. -/
theorem test_wit_ReadDataPhase_rdmulti :
    let i := Instr.rdmulti 0x18 0x28 8
    let last := machine { inPhase i .pRdata with idx := 7 } .idle
    let before := machine { inPhase i .pRdata with idx := 6 } .idle
    inStep i .pRdata (.rbyte false) (.data 0xFF) last = true ∧ last.blk.idx.toNat < 8 ∧
    (false = false ↔ last.blk.idx.toNat = 8 - 1) ∧
    inStep i .pRdata (.rbyte true) (.data 0xFF) before = true ∧ before.blk.idx.toNat < 8 ∧
    (true = false ↔ before.blk.idx.toNat = 8 - 1) ∧
    inStep i .pRdata (.rbyte true) .timeout (withEnv mute before) = true := by decide

theorem test_wit_StopPhase :
    isTxc (.rdmulti 0x18 0x28 8) = true ∧
    inStep (.rdmulti 0x18 0x28 8) .pStop .stop .done
      (busyIn (.rdmulti 0x18 0x28 8) .pStop) = true ∧
    inStep (.probe 0x18) .pStop .stop .timeout
      (withEnv mute (busyIn (.probe 0x18) .pStop)) = true ∧
    inStep (.rdreg 0x18 1) .pStop .stop .timeout
      (withEnv mute (machine { inPhase (.rdreg 0x18 1) .pStop with pcode := .noack } .idle)) =
      true := by decide

theorem test_wit_BusyBlockIssuesOnePrimitive :
    (busyIn (.rdreg 0x18 0x27) .pStart).Inv ∧
    (busyIn (.rdreg 0x18 0x27) .pStart).env.wellBehaved ∧
    (busyIn (.rdreg 0x18 0x27) .pStart).blk.busy = true := ⟨test_inv_busy, .inr rfl, rfl⟩

/-- The same with an injected answer of the set: the START that R92 lets NACK. -/
theorem test_wit_BusyBlockIssuesOnePrimitive_injected :
    (withEnv nackStart (busyIn (.rdreg 0x18 0x27) .pStart)).Inv ∧
    (withEnv nackStart (busyIn (.rdreg 0x18 0x27) .pStart)).answersInSet :=
  ⟨⟨test_inv_busy.blk, test_inv_busy.env⟩, fun _ _ h => by cases h; rfl⟩

theorem test_wit_OnlyTxcTouchesTheBus :
    agentStep .tick idle = .next idle ∧ agentStep .host idle = .next idle := ⟨rfl, rfl⟩

theorem test_wit_CommandEndsWithinItsBound :
    isTxc (.rdmulti 0x18 0x28 8) = true ∧ (Instr.rdmulti 0x18 0x28 8).wellFormed = true ∧
    idle.blk.busy = false ∧ idle.env.wellBehaved := ⟨rfl, rfl, rfl, .inr rfl⟩

/-- The same with an injected answer of the set: PROBE whose START is answered NACK. -/
theorem test_wit_CommandEndsWithinItsBound_injected :
    isTxc (.probe 0x18) = true ∧ (withEnv nackStart idle).blk.busy = false ∧
    (withEnv nackStart idle).answersDuring (.probe 0x18) := by
  refine ⟨rfl, rfl, fun j u hj hu => ?_⟩
  match j with
  | 0 =>
    cases hu
    intro _ _ h
    cases h
    rfl
  | 1 =>
    cases hu
    intro _ _ h
    cases h
    rfl
  | j + 2 => exact absurd hj (by simp [stepBound])

/-- For the statements about whole commands at the reference slave. -/
theorem test_wit_WholeCommands :
    idle.blk.busy = false ∧ idle.env.plainSlave ∧ (0x18 : Addr) ∈ idle.env.dev ∧
    ((0x18, 0x20) : Addr × Byte) ∉ idle.env.ro ∧ idle.env.canonical :=
  ⟨rfl, ⟨rfl, rfl⟩, by decide, by decide, by unfold Env.canonical; decide⟩

/-- With those, for RdmultiReadsConsecutiveRegisters. -/
theorem test_wit_RdmultiReadsConsecutiveRegisters :
    countInRange 1 = true ∧ countInRange 8 = true ∧
    (0x28 : Byte) = 0x28 ||| idle.params.autoincMask := by decide

/-- With those, for the read-only clause of WrregStoresTheValue. -/
theorem test_wit_WrregStoresTheValue_read_only :
    let e := { slave with ro := [(0x18, 0x0F)] }
    (withEnv e idle).env.plainSlave ∧ (withEnv e idle).env.canonical ∧
    ((0x18, 0x0F) : Addr × Byte) ∈ (withEnv e idle).env.ro :=
  ⟨⟨rfl, rfl⟩, test_inv_idle.env, List.mem_cons_self⟩

/-- For StepKeepsInvariant, StepKeepsParameters and NoStepFaults. -/
theorem test_wit_StepKeepsInvariant :
    ({ idle with sched := [.tick] } : State).Inv ∧
    step { idle with sched := [.tick] } = .next { idle with sched := [] } :=
  ⟨⟨test_inv_idle.blk, test_inv_idle.env⟩, rfl⟩

/-- For StepKeepsBusBracketed: a START that opens a transaction. -/
theorem test_wit_StepKeepsBusBracketed :
    let s := busyIn (.probe 0x19) .pStart
    ({ s with sched := [.txc] } : State).busBracketed ∧
    step { s with sched := [.txc] } = .next { s with
      sched := [], blk := s.blk.abort .noack, trace := [(.start 0x19 .w, .nack)] } := ⟨rfl, rfl⟩

theorem test_wit_DecoderRegistersHaveOneWriter :
    agentStep .host { idle with host := { idle.host with prog := [.submit 0x80000000] } } =
      .next (idle.withBlk fun b =>
        (b.acceptDecoder 0x80000000).setRaw #v[0x0040, 0xFFFF, 0xFE00]) ∧
    idle.blk.raw ≠ #v[0x0040, 0xFFFF, 0xFE00] := ⟨rfl, by decide⟩

theorem test_wit_CommandInProgressIsUndisturbed :
    (busyIn (.rdreg 0x18 0x27) .pOffset).blk.busy = true ∧
    agentStep .host (busyIn (.rdreg 0x18 0x27) .pOffset) =
      .next (busyIn (.rdreg 0x18 0x27) .pOffset) := ⟨rfl, rfl⟩

theorem test_wit_WindowWrites : idle.blk.busy = false := rfl

theorem test_wit_ReservedOffsetsReadZero :
    (∀ off ∈ [0x0C, 0x3C, 0x4C, 0x54, 0x5C, 0x98, 0xFC],
      off % 4 = 0 ∧ accessed off 4 = .ok .reserved) ∧ 0xFF < 0x100 ∧
    accessed 0x100 4 = .error .outsideWindow := by decide

theorem test_wit_UndefinedAccessesAreRefused :
    accessed 0x04 2 = .error .accessWidth ∧ accessed 0x05 4 = .error .unalignedAccess := by decide

theorem test_wit_StepRunsTheSubmittedInstruction :
    decodeWord 0x80000000 = .ok .decode ∧ (idle.placeWord 0x80000000).sched = [.host] ∧
    (idle.placeWord 0x80000000).host.prog = [.submit 0x80000000] := by decide

theorem test_wit_TickSetsPend :
    ({ idle.host with tickOn := true, pend := true } : HostSide).tickOn = true ∧
    ({ idle.host with tickOn := true, pend := true } : HostSide).pend = true ∧
    idle.host.tickOn = false := ⟨rfl, rfl, rfl⟩

/-- For ControllerSubmitsItsCommands: Acquire submits the RDMULTI of R207, and waits while busy. -/
theorem test_wit_ControllerSubmitsItsCommands :
    (machine blank (.acquire .submit)).host.prog = [] ∧
    (machine blank (.acquire .submit)).host.ctl = .acquire .submit ∧
    (blkOf (agentStep .host (machine blank (.acquire .submit)))).map Block.cmdreg =
      some 0x30182806 ∧
    (machine (inPhase (.rdreg 0x18 0x27) .pStart) (.status .wait)).host.ctl = .status .wait ∧
    (machine blank (.scan 127 .submit)).host.ctl = .scan 127 .submit ∧
    (machine blank (.cfgWrite .ctrl4 .submit)).host.ctl = .cfgWrite .ctrl4 .submit := by decide

theorem test_wit_BootSetsTheModeThenStartsTheTick :
    (machine blank .setMode).host.prog = [] ∧ (machine blank .setMode).host.ctl = .setMode ∧
    (machine blank .startTick).host.prog = [] ∧
    (machine blank .startTick).host.ctl = .startTick := by decide

/-- Boot with and without the optional SCAN. -/
theorem test_boot_start :
    bootStart true = .scan 0 .submit ∧ bootStart false = .cfgRead .ctrl1 .submit := by decide

theorem test_wit_ScanReportsThePresent :
    (machine { blank with present := true } (.scan 127 .stat)).host.prog = [] ∧
    (machine { blank with present := true } (.scan 127 .stat)).host.ctl = .scan 127 .stat ∧
    (machine blank (.scan 0 .stat)).host.prog = [] ∧
    (machine blank (.scan 0 .stat)).host.ctl = .scan 0 .stat := by decide

/-- The comparison of CONFIGURE, equal and different. -/
theorem test_wit_ConfigureWritesOnlyOnDifference_byte :
    (machine blank (.cfgByte .ctrl4)).host.prog = [] ∧
    (machine blank (.cfgByte .ctrl4)).host.ctl = .cfgByte .ctrl4 ∧
    (machine blank (.cfgByte .ctrl4)).blk.rxbuf[0] = params.ctrl4Target ∧
    (machine blank (.cfgByte .ctrl1)).blk.rxbuf[0] ≠ params.ctrl1Target := by decide

/-- Its two reads of STAT, with success and with failure. -/
theorem test_wit_ConfigureWritesOnlyOnDifference_stat :
    let s := machine { blank with code := .noack } (.cfgRead .ctrl1 .stat)
    let u := machine { blank with code := .timeout } (.cfgWrite .ctrl4 .stat)
    s.host.prog = [] ∧ s.host.ctl = .cfgRead .ctrl1 .stat ∧ s.blk.code ≠ .ok ∧
    u.host.prog = [] ∧ u.host.ctl = .cfgWrite .ctrl4 .stat ∧ u.blk.code ≠ .ok ∧
    (machine blank (.cfgRead .ctrl1 .stat)).blk.code = .ok := by decide

theorem test_wit_OnlyZyxdaGatesTheCycle :
    (machine blank .statusByte).host.prog = [] ∧
    (machine blank .statusByte).host.ctl = .statusByte ∧ idle.host.prog = [] ∧
    idle.host.ctl = .idle ∧ (0x08 : Byte).getLsbD 3 = true ∧ (0x80 : Byte).getLsbD 3 = false := by
  decide

theorem test_wit_FailedCycleReportsOnceAndSendsNothing :
    let s := machine { blank with code := .noack } (.acquire .stat)
    let u := machine { blank with code := .timeout } (.status .stat)
    s.host.prog = [] ∧ s.host.ctl = .acquire .stat ∧ s.blk.code ≠ .ok ∧
    u.host.prog = [] ∧ u.host.ctl = .status .stat ∧ u.blk.code ≠ .ok := by decide

theorem test_wit_SuccessfulCommandsCarryTheCycleOn :
    ∀ c ∈ [CtlPoint.status .stat, .acquire .stat, .decode .stat, .scale .stat, .frame .stat],
      (machine blank c).host.prog = [] ∧ (machine blank c).host.ctl = c ∧
      (machine blank c).blk.code = .ok := by decide

theorem test_wit_EmitSendsTheFrameOnce :
    let s := machine { blank with framelen := 14 } .frameLen
    s.host.prog = [] ∧ s.host.ctl = .frameLen ∧ 14 = s.blk.framelen.toNat ∧ 14 ≤ 14 ∧
    8 = (machine { blank with framelen := 8 } .frameLen).blk.framelen.toNat := by decide

end Sys2Proof.Tests
end

section
/-! The parameters of 00_scope.md R8 right after reset. -/

namespace Sys2Proof.Machine

@[simp] theorem reset_params : State.reset.params = defaultParams := rfl

@[simp] theorem modeRow_false (t : ModeTable) : modeRow t false = t.row0 := rfl

@[simp] theorem modeRow_true (t : ModeTable) : modeRow t true = t.row1 := rfl

/-- The default ModeTable holds the two rows that 41_decoder.md R171 names. -/
theorem defaultParams_modeTable :
    defaultParams.modeTable = ⟨normal10Mg16, hires12Ms2⟩ := rfl

/-- Settles O52: reset gives the default parameters, whose stated fields are the values of R8 and
whose ModeTable has R171's rows. -/
theorem parametersHaveTheirSourceValues : Obligations.ParametersHaveTheirSourceValues := by
  unfold Obligations.ParametersHaveTheirSourceValues
  rintro p rfl
  have hrows : modeRow defaultParams.modeTable false = ⟨.six, .four, .mg, .two⟩ ∧
      modeRow defaultParams.modeTable true = ⟨.four, .two, .ms2, .four⟩ := by
    simp [defaultParams_modeTable, normal10Mg16, hires12Ms2]
  rw [reset_params]
  exact ⟨rfl, rfl, rfl, rfl, rfl, rfl, rfl, rfl, rfl, hrows⟩

end Sys2Proof.Machine
end

section
/-! Acceptance and the TXC step, once: what each does to the block (30_encoding.md R100, 40_transactions.md
R133 to R138). -/

namespace Sys2Proof.Machine

/-! ### Acceptance -/

/-- Submitting an instruction is one acceptance of its word, which clears OVR (30_encoding.md R100). -/
theorem exec_accepts (i : Instr) (s : State) :
    ∃ f : Block → Block, exec i s = s.accept f ∧ ∀ b, (f b).cmdreg = encode i ∧ (f b).ovr = false := by
  cases i with
  | probe a => exact ⟨_, rfl, fun _ => ⟨rfl, rfl⟩⟩
  | rdreg a off => exact ⟨_, rfl, fun _ => ⟨rfl, rfl⟩⟩
  | rdmulti a off count =>
    cases h : countInRange count with
    | true => exact ⟨_, execRdmulti_legal a off count s h, fun _ => ⟨rfl, rfl⟩⟩
    | false => exact ⟨_, execRdmulti_illegal a off count s h, fun _ => ⟨rfl, rfl⟩⟩
  | wrreg a off val => exact ⟨_, rfl, fun _ => ⟨rfl, rfl⟩⟩
  | decode => exact ⟨_, rfl, fun _ => ⟨rfl, rfl⟩⟩
  | scale => exact ⟨_, rfl, fun _ => ⟨rfl, rfl⟩⟩
  | frame => exact ⟨_, rfl, fun _ => ⟨rfl, rfl⟩⟩

/-- A write of any word to CMD is one acceptance, which clears OVR (10_state.md R42). -/
theorem submitWord_accepts (w : Word) (s : State) :
    ∃ f : Block → Block, submitWord w s = s.accept f ∧ ∀ b, (f b).ovr = false := by
  unfold submitWord
  cases decodeWord w with
  | ok i =>
    obtain ⟨f, hf, hacc⟩ := exec_accepts i s
    exact ⟨f, hf, fun b => (hacc b).2⟩
  | error e => exact ⟨_, rfl, fun _ => rfl⟩

/-- Decoding the word of a well-formed instruction gives it back. -/
theorem decodeWord_encode (i : Instr) (h : i.wellFormed = true) : decodeWord (encode i) = .ok i := by
  cases i <;> simp_all [encode, decodeWord, whenUnusedZero, Instr.wellFormed]

/-- A command that CMDREG holds is well formed. -/
theorem Block.command_wellFormed (b : Block) (i : Instr) (h : b.command = some i) :
    i.wellFormed = true := by
  unfold Block.command at h
  cases hd : decodeWord b.cmdreg with
  | ok j =>
    rw [hd] at h
    cases h
    exact decodeWord_wellFormed _ _ hd
  | error e =>
    rw [hd] at h
    cases h

/-- A well-formed command reads at most RXDEPTH bytes. -/
theorem readCount_le_rxDepth (i : Instr) (h : i.wellFormed = true) : readCount i ≤ rxDepth := by
  cases i with
  | rdmulti a off count => exact (of_decide_eq_true h).2
  | rdreg a off => exact Nat.le_of_ble_eq_true rfl
  | probe a => exact Nat.zero_le _
  | wrreg a off val => exact Nat.zero_le _
  | decode => exact Nat.zero_le _
  | scale => exact Nat.zero_le _
  | frame => exact Nat.zero_le _

/-! ### The TXC step -/

/-- What the response of the primitive that PHASE names can do to the block `b` of the command `i`. -/
inductive TxcEffect (i : Instr) (b : Block) : Block → Prop where
  | aborted (c : Code) : b.phase ≠ .pStop → c ≠ .illegal → TxcEffect i b (b.abort c)
  | started : b.phase = .pStart → TxcEffect i b (b.started i)
  | offsetSent : b.phase = .pOffset →
      TxcEffect i b { b with phase := if (writeValue i).isSome then .pWdata else .pRestart }
  | valueSent : b.phase = .pWdata → TxcEffect i b { b with phase := .pStop }
  | restarted : b.phase = .pRestart → TxcEffect i b { b with phase := .pRdata }
  | lastByte (v : Byte) : b.phase = .pRdata → b.idx.toNat + 1 = readCount i →
      TxcEffect i b { b.storeRx v with phase := .pStop }
  | byte (v : Byte) : b.phase = .pRdata → b.idx.toNat + 1 ≠ readCount i →
      TxcEffect i b { b.storeRx v with idx := b.idx + 1 }
  | finished (c : Code) : b.phase = .pStop → c = b.pcode ∨ c = .timeout →
      TxcEffect i b (b.finish c (readCount i))

/-- Whatever response a phase takes, it has one of the effects of `TxcEffect`. -/
theorem Block.respond_effect (i : Instr) (r : Response) (b b' : Block)
    (h : b.respond i r = some b') : TxcEffect i b b' := by
  unfold Block.respond at h
  cases hph : b.phase <;> simp only [hph] at h
  case idle => cases h
  case pStart =>
    cases r <;> cases h
    · exact .started hph
    · exact .aborted _ (by simp [hph]) nofun
    · exact .aborted _ (by simp [hph]) nofun
  case pOffset =>
    cases r <;> cases h
    · exact .offsetSent hph
    · exact .aborted _ (by simp [hph]) nofun
    · exact .aborted _ (by simp [hph]) nofun
  case pWdata =>
    cases r <;> cases h
    · exact .valueSent hph
    · exact .aborted _ (by simp [hph]) nofun
    · exact .aborted _ (by simp [hph]) nofun
  case pRestart =>
    cases r <;> cases h
    · exact .restarted hph
    · exact .aborted _ (by simp [hph]) nofun
    · exact .aborted _ (by simp [hph]) nofun
  case pRdata =>
    cases r <;> cases h
    · exact .aborted _ (by simp [hph]) nofun
    · split
      · exact .lastByte _ hph ‹_›
      · exact .byte _ hph ‹_›
  case pStop =>
    cases r <;> cases h
    · split
      · exact .finished _ hph (.inr rfl)
      · exact .finished _ hph (.inl rfl)
    · exact .finished _ hph (.inl rfl)

end Sys2Proof.Machine
end

section
/-! The invariant of the block's sequencer (10_state.md R39 to R48). -/

namespace Sys2Proof.Machine

variable {p : Params} {b b' : Block} {i : Instr} {w : Word}

/-! ### When the invariant holds -/

/-- While `BUSY = 0` the sequencer's part of the invariant says only that PHASE is IDLE. -/
theorem Block.Inv.of_idle (hbusy : b.busy = false) (hphase : b.phase = .idle)
    (hpcode : b.pcode ≠ .illegal) (hpresent : b.present = true → ∃ a, b.command = some (.probe a))
    (hillegal : b.code = .illegal → b.command = none) (hrxcnt : b.rxcnt.toNat ≤ rxDepth)
    (hlen : b.framelen = 0 ∨ b.framelen = 8 ∨ b.framelen = 14) : b.Inv p where
  busyPhase := by simp [hbusy, hphase]
  busyFlags := by simp [hbusy]
  sequenced := by simp [hbusy]
  idxZero := by simp [hbusy]
  firstFailure := by simp [hbusy]
  pcodeBus := hpcode
  presentProbe := hpresent
  illegalWord := hillegal
  rxcntRange := hrxcnt
  frameLengths := hlen

/-- While `BUSY = 1`, that the command has a next primitive gives that PHASE is not IDLE, and the
flags at 0 give what the invariant says of CODE and RXCNT. -/
theorem Block.Inv.of_busy (hbusy : b.busy = true)
    (hflags : b.done = false ∧ b.code = .ok ∧ b.rxcnt = 0) (hcommand : b.command = some i)
    (hprim : (nextPrim p i b).isSome = true)
    (hidx : b.phase ≠ .pRdata → b.phase ≠ .pStop → b.idx = 0)
    (hfirst : b.phase ≠ .pStop → b.pcode = .ok) (hpcode : b.pcode ≠ .illegal)
    (hpresent : b.present = true → ∃ a, i = .probe a)
    (hlen : b.framelen = 0 ∨ b.framelen = 8 ∨ b.framelen = 14) : b.Inv p where
  busyPhase := by
    refine iff_of_true hbusy fun hidle => ?_
    simp [nextPrim, hidle] at hprim
  busyFlags _ := hflags
  sequenced _ := ⟨i, hcommand, hprim⟩
  idxZero _ := hidx
  firstFailure _ := hfirst
  pcodeBus := hpcode
  presentProbe hp := by
    obtain ⟨a, rfl⟩ := hpresent hp
    exact ⟨a, hcommand⟩
  illegalWord hc := by simp [hflags.2.1] at hc
  rxcntRange := by simp [hflags.2.2]
  frameLengths := hlen

/-- The invariant does not speak of OVR, MODE and the data registers. -/
theorem Block.Inv.with_data (h : b.Inv p) (ovr sel : Bool) (rx : Vector Byte 8)
    (raw : Vector Half 3) (phys : Vector Word 3) (frame : Vector Byte 14) :
    Block.Inv p { b with
      ovr := ovr, modeSel := sel, rxbuf := rx, raw := raw, phys := phys, frame := frame } :=
  ⟨h.busyPhase, h.busyFlags, h.sequenced, h.idxZero, h.firstFailure, h.pcodeBus, h.presentProbe,
    h.illegalWord, h.rxcntRange, h.frameLengths⟩

/-- A block that is not busy is in phase IDLE. -/
theorem Block.Inv.phase_idle (h : b.Inv p) (hbusy : b.busy = false) : b.phase = .idle := by
  by_contra hph
  simp [h.busyPhase.mpr hph] at hbusy

/-- The block after any reset meets the invariant. -/
theorem Block.atReset_inv (p : Params) (n : Nat) : (Block.atReset n).Inv p :=
  .of_idle rfl rfl nofun nofun nofun (Nat.zero_le _) (.inl rfl)

/-! ### Host writes -/

/-- Acceptance of a legal TXC command sets the sequencer to its START. -/
theorem Block.Inv.acceptTxc (h : b.Inv p) (htxc : isTxc i = true) (hw : i.wellFormed = true) :
    (b.acceptTxc (encode i)).Inv p := by
  have hcommand : (b.acceptTxc (encode i)).command = some i := by
    simp [Block.command, decodeWord_encode i hw, Except.toOption]
  exact .of_busy rfl ⟨rfl, rfl, rfl⟩ hcommand (by simpa [nextPrim, isTxc] using htxc)
    (fun _ _ => rfl) (fun _ => rfl) nofun nofun h.frameLengths

/-- Acceptance of an illegal word. -/
theorem Block.Inv.acceptIllegal (h : b.Inv p) (hbusy : b.busy = false)
    (hw : (decodeWord w).toOption = none) : (b.acceptIllegal w).Inv p :=
  .of_idle hbusy (h.phase_idle hbusy) h.pcodeBus nofun (fun _ => hw) h.rxcntRange h.frameLengths

/-- Acceptance of a decoder command. -/
theorem Block.Inv.acceptDecoder (h : b.Inv p) (hbusy : b.busy = false) :
    (b.acceptDecoder w).Inv p :=
  .of_idle hbusy (h.phase_idle hbusy) h.pcodeBus nofun nofun h.rxcntRange h.frameLengths

/-- Every write that the host can make keeps the invariant. -/
theorem BlockWrite.keeps_inv (hwrite : BlockWrite b b') (h : b.Inv p) : b'.Inv p := by
  cases hwrite with
  | same => exact h
  | mode v => exact h.with_data _ _ _ _ _ _
  | dropped _ => exact h.with_data _ _ _ _ _ _
  | stored rx _ => exact h.with_data _ _ rx _ _ _
  | txc i _ htxc hw => exact h.acceptTxc htxc hw
  | illegal w hbusy hw => exact h.acceptIllegal hbusy hw
  | decode r hbusy => exact (h.acceptDecoder hbusy).with_data _ _ _ r _ _
  | scale ph hbusy => exact (h.acceptDecoder hbusy).with_data _ _ _ _ ph _
  | frame f n hbusy hn =>
    exact .of_idle hbusy (h.phase_idle hbusy) h.pcodeBus nofun nofun h.rxcntRange (.inr hn)

/-! ### TXC steps -/

/-- Only a TXC command has a next primitive. -/
theorem isTxc_of_nextPrim (h : (nextPrim p i b).isSome = true) : isTxc i = true := by
  cases i <;> cases hph : b.phase <;>
    simp_all [nextPrim, isTxc, busAddr, offsetByte, writeValue, readCount]

/-- A busy block stays busy with the same command: what the invariant then asks of the fields that a
phase may change. -/
theorem Block.Inv.advance (h : b.Inv p) (hbusy : b.busy = true) (hc : b.command = some i)
    (ph : Phase) (idx : BitVec 4) (pc : Code) (present : Bool)
    (hprim : (nextPrim p i { b with phase := ph, idx := idx }).isSome = true)
    (hidx : ph ≠ .pRdata → ph ≠ .pStop → idx = 0) (hfirst : ph ≠ .pStop → pc = .ok)
    (hpcode : pc ≠ .illegal) (hpresent : present = true → ∃ a, i = .probe a) :
    Block.Inv p { b with phase := ph, idx := idx, pcode := pc, present := present } :=
  .of_busy hbusy (h.busyFlags hbusy) hc hprim hidx hfirst hpcode hpresent h.frameLengths

/-- PRESENT is 1 only for the PROBE in CMDREG. -/
theorem Block.Inv.present_probe (h : b.Inv p) (hc : b.command = some i) (hp : b.present = true) :
    ∃ a, i = .probe a := by
  obtain ⟨a, ha⟩ := h.presentProbe hp
  exact ⟨a, Option.some.inj (hc.symm.trans ha)⟩

/-- A TXC command can always go on to its STOP. -/
theorem Block.Inv.to_stop (h : b.Inv p) (hbusy : b.busy = true) (hc : b.command = some i)
    (htxc : isTxc i = true) (pc : Code) (hpcode : pc ≠ .illegal) (present : Bool)
    (hpresent : present = true → ∃ a, i = .probe a) :
    Block.Inv p { b with phase := .pStop, pcode := pc, present := present } :=
  h.advance hbusy hc .pStop b.idx pc present (by simp [nextPrim, htxc]) (fun _ hs => absurd rfl hs)
    (fun hs => absurd rfl hs) hpcode hpresent

/-- The end of a command. -/
theorem Block.Inv.finish (h : b.Inv p) (hc : b.command = some i) (c : Code) (hcode : c ≠ .illegal) :
    (b.finish c (readCount i)).Inv p := by
  have hcount := readCount_le_rxDepth i (b.command_wellFormed i hc)
  refine .of_idle rfl rfl h.pcodeBus h.presentProbe (fun hi => absurd hi hcode) ?_ h.frameLengths
  rw [Block.finish_rxcnt]
  split
  · exact (Nat.mod_le _ _).trans hcount
  · exact Nat.zero_le _

/-- The acknowledged address byte: PROBE goes on to its STOP, every other command to its offset. -/
theorem Block.Inv.started (h : b.Inv p) (hbusy : b.busy = true) (hc : b.command = some i)
    (htxc : isTxc i = true) (hph : b.phase = .pStart) : (b.started i).Inv p := by
  have hoffset (ho : (offsetByte p i).isSome = true) : Block.Inv p { b with phase := .pOffset } :=
    h.advance hbusy hc .pOffset b.idx b.pcode b.present (by simpa [nextPrim] using ho)
      (fun _ _ => h.idxZero hbusy (by simp [hph]) (by simp [hph]))
      (fun _ => h.firstFailure hbusy (by simp [hph])) h.pcodeBus (h.present_probe hc)
  cases i with
  | probe a => exact h.to_stop hbusy hc htxc b.pcode h.pcodeBus true fun _ => ⟨a, rfl⟩
  | rdreg a off => exact hoffset rfl
  | rdmulti a off count => exact hoffset rfl
  | wrreg a off val => exact hoffset rfl
  | decode => cases htxc
  | scale => cases htxc
  | frame => cases htxc

/-- After the offset there is a primitive: the value of WRREG, else the RESTART of a read of at least
one byte. -/
theorem nextPrim_of_offsetSent (hw : i.wellFormed = true) (ho : (offsetByte p i).isSome = true) :
    (nextPrim p i { b with phase := if (writeValue i).isSome then .pWdata else .pRestart }).isSome =
      true := by
  cases i with
  | rdreg a off => rfl
  | rdmulti a off count =>
    have hcount : count.toNat ≠ 0 := Nat.one_le_iff_ne_zero.mp (of_decide_eq_true hw).1
    simp [nextPrim, writeValue, readCount, hcount, busAddr]
  | wrreg a off val => rfl
  | probe a => cases ho
  | decode => cases ho
  | scale => cases ho
  | frame => cases ho

/-- IDX does not wrap: while bytes are wanted it stays below the count. -/
theorem idx_succ_lt_readCount (hw : i.wellFormed = true) (hlt : b.idx.toNat < readCount i)
    (hmore : b.idx.toNat + 1 ≠ readCount i) : (b.idx + 1).toNat < readCount i := by
  have hcount : readCount i ≤ 8 := readCount_le_rxDepth i hw
  rw [BitVec.toNat_add]
  change (b.idx.toNat + 1) % 16 < _
  omega

/-- What the response of a primitive does keeps the invariant. -/
theorem TxcEffect.keeps_inv (heff : TxcEffect i b b') (h : b.Inv p) (hbusy : b.busy = true)
    (hc : b.command = some i) (hprim : (nextPrim p i b).isSome = true) : b'.Inv p := by
  have htxc := isTxc_of_nextPrim hprim
  have hw := b.command_wellFormed i hc
  have hpresent := h.present_probe hc
  have hpcode := h.pcodeBus
  have hfirst := h.firstFailure hbusy
  cases heff with
  | aborted c _ hcode => exact h.to_stop hbusy hc htxc c hcode b.present hpresent
  | started hph => exact h.started hbusy hc htxc hph
  | offsetSent hph =>
    have hoffset : (offsetByte p i).isSome = true := by simpa [nextPrim, hph] using hprim
    exact h.advance hbusy hc _ b.idx b.pcode b.present (nextPrim_of_offsetSent hw hoffset)
      (fun _ _ => h.idxZero hbusy (by simp [hph]) (by simp [hph])) (fun _ => hfirst (by simp [hph]))
      hpcode hpresent
  | valueSent _ => exact h.to_stop hbusy hc htxc b.pcode hpcode b.present hpresent
  | restarted hph =>
    have hidx := h.idxZero hbusy (by simp [hph]) (by simp [hph])
    have hcount : readCount i ≠ 0 := fun hzero => by simp [nextPrim, hph, hzero] at hprim
    exact h.advance hbusy hc .pRdata b.idx b.pcode b.present
      (by simp [nextPrim, hidx, Nat.pos_of_ne_zero hcount]) (fun hr => absurd rfl hr)
      (fun _ => hfirst (by simp [hph])) hpcode hpresent
  | lastByte v _ _ =>
    exact (h.to_stop hbusy hc htxc b.pcode hpcode b.present hpresent).with_data _ _ _ _ _ _
  | byte v hph hmore =>
    have hlt : b.idx.toNat < readCount i := by
      by_contra hge
      simp [nextPrim, hph, hge] at hprim
    have hnext := idx_succ_lt_readCount hw hlt hmore
    exact (h.advance hbusy hc b.phase (b.idx + 1) b.pcode b.present
      (by simpa [nextPrim, hph] using hnext) (fun hr => absurd hph hr)
      hfirst hpcode hpresent).with_data _ _ _ _ _ _
  | finished c _ hcode =>
    refine h.finish hc c ?_
    rintro rfl
    rcases hcode with hcode | hcode
    · exact hpcode hcode.symm
    · cases hcode

/-! ### Steps of the machine -/

/-- If TXC takes a step, the block changes by one effect of a response. -/
theorem txcStep_effect (s t : State) (h : txcStep s = .next t) :
    ∃ i, s.blk.command = some i ∧ (nextPrim s.params i s.blk).isSome = true ∧
      TxcEffect i s.blk t.blk := by
  obtain ⟨i, q, r, e, b, hc, hq, -, hb, rfl⟩ := txcStep_cases s t h
  exact ⟨i, hc, by simp [hq], s.blk.respond_effect i r b hb⟩

/-- A TXC step leaves the parameters and the canonical form of the slave memory. -/
theorem txcStep_env (s t : State) (h : txcStep s = .next t) :
    t.params = s.params ∧ (s.env.canonical → t.env.canonical) := by
  obtain ⟨i, q, r, e, b, -, -, ha, -, rfl⟩ := txcStep_cases s t h
  refine ⟨rfl, fun he => ?_⟩
  have hcan := answer_canonical q s.trace.length s.env he
  rwa [ha] at hcan

/-- No agent changes the parameters. -/
theorem agentStep_params (a : Agent) (s t : State) (h : agentStep a s = .next t) :
    t.params = s.params := by
  obtain ⟨-, _, _, rfl, -⟩ | ⟨-, -, htxc⟩ | ⟨-, -, rfl⟩ | ⟨-, rfl⟩ | ⟨-, rfl⟩ :=
    agentStep_cases a s t h
  · rfl
  · exact (txcStep_env s t htxc).1
  · rfl
  · rfl
  · rfl

/-- The step of each agent keeps the invariant. -/
theorem agentStep_keeps_inv (a : Agent) (s t : State) (hinv : s.Inv)
    (h : agentStep a s = .next t) : t.Inv := by
  obtain ⟨-, _, _, rfl, hwrite⟩ | ⟨-, hbusy, htxc⟩ | ⟨-, -, rfl⟩ | ⟨-, rfl⟩ | ⟨-, rfl⟩ :=
    agentStep_cases a s t h
  · exact ⟨hwrite.keeps_inv hinv.blk, hinv.env⟩
  · obtain ⟨i, hc, hprim, heff⟩ := txcStep_effect s t htxc
    obtain ⟨hparams, hcanon⟩ := txcStep_env s t htxc
    refine ⟨?_, hcanon hinv.env⟩
    rw [hparams]
    exact heff.keeps_inv hinv.blk hbusy hc hprim
  · exact hinv
  · exact ⟨hinv.blk, hinv.env⟩
  · exact ⟨Block.atReset_inv _ _, hinv.env⟩

/-- Settles O37: each agent keeps the invariant, and choosing the agent touches the schedule only. -/
theorem stepKeepsInvariant : Obligations.StepKeepsInvariant := by
  unfold Obligations.StepKeepsInvariant
  intro s t hinv h
  obtain ⟨a, l, n, ha⟩ := step_cases s t h
  exact agentStep_keeps_inv a { s with sched := l, clock := n } t ⟨hinv.blk, hinv.env⟩ ha

/-- Settles O41: no agent changes the parameters, and neither does choosing the agent. -/
theorem stepKeepsParameters : Obligations.StepKeepsParameters := by
  unfold Obligations.StepKeepsParameters
  intro s t h
  obtain ⟨a, l, n, ha⟩ := step_cases s t h
  exact agentStep_params a { s with sched := l, clock := n } t ha

end Sys2Proof.Machine
end

section
/-! Who writes the decoder's registers, and what reset leaves (10_state.md R34 to R36, R52). -/

namespace Sys2Proof.Machine

variable {b b' : Block} {i : Instr}

/-! ### The writers of RAW, PHYS and FRAME -/

/-- A host write that changes RAW is an accepted DECODE. -/
theorem BlockWrite.decode_of_raw_ne (h : BlockWrite b b') (hne : b'.raw ≠ b.raw) :
    b.busy = false ∧ b'.cmdreg = encode .decode ∧ b'.done = true := by
  cases h with
  | decode r hbusy => exact ⟨hbusy, rfl, rfl⟩
  | _ => exact absurd rfl hne

/-- A host write that changes PHYS is an accepted SCALE. -/
theorem BlockWrite.scale_of_phys_ne (h : BlockWrite b b') (hne : b'.phys ≠ b.phys) :
    b.busy = false ∧ b'.cmdreg = encode .scale ∧ b'.done = true := by
  cases h with
  | scale ph hbusy => exact ⟨hbusy, rfl, rfl⟩
  | _ => exact absurd rfl hne

/-- A host write that changes FRAME or FRAMELEN is an accepted FRAME. -/
theorem BlockWrite.frame_of_frame_ne (h : BlockWrite b b')
    (hne : b'.frame ≠ b.frame ∨ b'.framelen ≠ b.framelen) :
    b.busy = false ∧ b'.cmdreg = encode .frame ∧ b'.done = true := by
  cases h with
  | frame f n hbusy _ => exact ⟨hbusy, rfl, rfl⟩
  | _ => exact absurd ⟨rfl, rfl⟩ (not_and_or.mpr hne)

/-- The response of a primitive changes no register of the decoder. -/
theorem TxcEffect.decoder_registers (h : TxcEffect i b b') :
    b'.raw = b.raw ∧ b'.phys = b.phys ∧ b'.frame = b.frame ∧ b'.framelen = b.framelen := by
  cases h with
  | started _ => cases i <;> exact ⟨rfl, rfl, rfl, rfl⟩
  | _ => exact ⟨rfl, rfl, rfl, rfl⟩

/-- A step of another agent than the host, but reset, changes no register of the decoder. -/
theorem agentStep_decoder_registers (a : Agent) (s t : State) (hhost : a ≠ .host)
    (hreset : a ≠ .reset) (h : agentStep a s = .next t) :
    t.blk.raw = s.blk.raw ∧ t.blk.phys = s.blk.phys ∧ t.blk.frame = s.blk.frame ∧
      t.blk.framelen = s.blk.framelen := by
  obtain ⟨rfl, -⟩ | ⟨-, -, htxc⟩ | ⟨-, -, rfl⟩ | ⟨-, rfl⟩ | ⟨rfl, -⟩ := agentStep_cases a s t h
  · exact absurd rfl hhost
  · obtain ⟨i, -, -, heff⟩ := txcStep_effect s t htxc
    exact heff.decoder_registers
  · exact ⟨rfl, rfl, rfl, rfl⟩
  · exact ⟨rfl, rfl, rfl, rfl⟩
  · exact absurd rfl hreset

/-- Settles O42: among the writes of the host only one command changes each register, and no other
agent changes any. -/
theorem decoderRegistersHaveOneWriter : Obligations.DecoderRegistersHaveOneWriter := by
  unfold Obligations.DecoderRegistersHaveOneWriter
  intro a s t hreset h
  by_cases hhost : a = .host
  · subst hhost
    obtain ⟨_, b, rfl, hwrite⟩ := hostStep_effect s t h
    exact ⟨fun hne => ⟨rfl, hwrite.decode_of_raw_ne hne⟩,
      fun hne => ⟨rfl, hwrite.scale_of_phys_ne hne⟩,
      fun hne => ⟨rfl, hwrite.frame_of_frame_ne hne⟩⟩
  · obtain ⟨hraw, hphys, hframe, hlen⟩ := agentStep_decoder_registers a s t hhost hreset h
    exact ⟨fun hne => absurd hraw hne, fun hne => absurd hphys hne,
      fun hne => absurd ⟨hframe, hlen⟩ (not_and_or.mpr hne)⟩

/-! ### Reset -/

/-- The control and sequencing state after any reset (10_state.md R52). -/
theorem Block.atReset_control (n : Nat) :
    (Block.atReset n).cmdreg = 0 ∧ (Block.atReset n).busy = false ∧
    (Block.atReset n).done = false ∧ (Block.atReset n).present = false ∧
    (Block.atReset n).ovr = false ∧ (Block.atReset n).code = .ok ∧ (Block.atReset n).rxcnt = 0 ∧
    (Block.atReset n).modeSel = false ∧ (Block.atReset n).phase = .idle ∧
    (Block.atReset n).idx = 0 ∧ (Block.atReset n).pcode = .ok ∧ (Block.atReset n).framelen = 0 :=
  ⟨rfl, rfl, rfl, rfl, rfl, rfl, rfl, rfl, rfl, rfl, rfl, rfl⟩

/-- HSTATE after a reset. -/
@[simp] theorem State.applyReset_hstate (s : State) : s.applyReset.hstate = .idle :=
  bootStart_hstate _

@[simp] theorem reset_blk : State.reset.blk = Block.atReset 0 := rfl
@[simp] theorem reset_pend : State.reset.host.pend = false := rfl
@[simp] theorem reset_trace : State.reset.trace = [] := rfl

/-- HSTATE of the reset state. -/
@[simp] theorem reset_hstate : State.reset.hstate = .idle := bootStart_hstate _

/-- Nothing is listed in the slave memory of the initial environment. -/
theorem Env.initial_canonical : Env.initial.canonical := by
  simp [Env.canonical, Memory.wf, Env.initial]

/-- Settles O39: the block and the environment meet their invariants at reset, and nothing is on the
bus. -/
theorem resetMeetsInvariants : Obligations.ResetMeetsInvariants := by
  unfold Obligations.ResetMeetsInvariants
  have htrace : State.reset.busBracketed := rfl
  exact ⟨⟨Block.atReset_inv defaultParams 0, Env.initial_canonical⟩, htrace⟩

/-- Settles O51: both states hold the block right after a reset, and the host before its boot order. -/
theorem resetGivesTheResetValues : Obligations.ResetGivesTheResetValues := by
  unfold Obligations.ResetGivesTheResetValues
  intro s
  refine ⟨s.applyReset, rfl, rfl, rfl, ?_⟩
  rintro u (rfl | rfl)
  · simp [Block.atReset_control]
  · simp [Block.atReset_control]

end Sys2Proof.Machine
end

section
/-! The register window: what STAT holds, and which register each offset of 20_memory.md R71 reaches. -/

namespace Sys2Proof.Machine

/-! ### The layout of STAT -/

/-- The only bit of a flag. -/
theorem bit_getLsbD_zero (b : Bool) : (bit b).getLsbD 0 = b := by
  cases b <;> rfl

/-- STAT bit by bit (10_state.md R39): which bit of which field stands at bit `k`. -/
theorem Block.stat_getLsbD (b : Block) (k : Nat) :
    b.stat.getLsbD k =
      if k < 1 then (bit b.busy).getLsbD k
      else if k - 1 < 1 then (bit b.done).getLsbD (k - 1)
      else if k - 2 < 2 then (codeBits b.code).getLsbD (k - 2)
      else if k - 4 < 1 then (bit b.present).getLsbD (k - 4)
      else if k - 5 < 1 then (bit b.ovr).getLsbD (k - 5)
      else if k - 6 < 2 then (0 : BitVec 2).getLsbD (k - 6)
      else if k - 8 < 4 then b.rxcnt.getLsbD (k - 8)
      else (0 : BitVec 20).getLsbD (k - 12) := by
  simp only [Block.stat, BitVec.getLsbD_append, Nat.sub_sub]

/-- Settles O44: each field is read off the bits of STAT. -/
theorem statWordLayout : Obligations.StatWordLayout := by
  unfold Obligations.StatWordLayout
  intro b
  have hbit := b.stat_getLsbD
  have hcode : b.stat.extractLsb' 2 2 = codeBits b.code := by
    ext k hk
    grind
  have hgap : b.stat.extractLsb' 6 2 = 0 := by
    ext k hk
    grind
  have hrxcnt : b.stat.extractLsb' 8 4 = b.rxcnt := by
    ext k hk
    grind
  have hhigh : b.stat.extractLsb' 12 20 = 0 := by
    ext k hk
    grind
  refine ⟨(hbit 0).trans (bit_getLsbD_zero _), (hbit 1).trans (bit_getLsbD_zero _), ?_,
    (hbit 4).trans (bit_getLsbD_zero _), (hbit 5).trans (bit_getLsbD_zero _), hgap, hrxcnt, hhigh⟩
  rw [hcode]
  cases b.code <;> rfl

/-! ### Which register an access reaches -/

theorem accessed_rxbuf (i : Fin 8) : accessed (0x10 + 4 * i.val) 4 = .ok (.rxbuf i) := by
  revert i; decide

theorem accessed_raw (i : Fin 3) : accessed (0x30 + 4 * i.val) 4 = .ok (.raw i) := by
  revert i; decide

theorem accessed_phys (i : Fin 3) : accessed (0x40 + 4 * i.val) 4 = .ok (.phys i) := by
  revert i; decide

theorem accessed_frame (i : Fin 14) : accessed (0x60 + 4 * i.val) 4 = .ok (.frame i) := by
  revert i; decide

theorem hostRead_of_accessed {off width : Nat} {r : Reg} (s : State)
    (h : accessed off width = .ok r) :
    hostRead off width s = .next (s.logRead off (s.blk.readReg r)) := by
  simp only [hostRead, h]

theorem hostWrite_of_accessed {off width : Nat} {r : Reg} (v : Word) (s : State)
    (h : accessed off width = .ok r) : hostWrite off width v s = writeReg r v s := by
  simp only [hostWrite, h]

/-- The bit of MODE as the host reads it. -/
theorem bit_zeroExtend (b : Bool) : (bit b).zeroExtend 32 = if b then 1 else 0 := by
  cases b <;> rfl

/-- Settles O45: each offset reaches its register, and the host reads the register's value. -/
theorem windowReads : Obligations.WindowReads := by
  unfold Obligations.WindowReads
  intro s
  refine ⟨rfl, rfl, ?_, fun i => ?_, fun i => ?_, fun i => ?_, rfl, fun i => ?_⟩
  · rw [← bit_zeroExtend]
    rfl
  · exact hostRead_of_accessed s (accessed_rxbuf i)
  · exact hostRead_of_accessed s (accessed_raw i)
  · exact hostRead_of_accessed s (accessed_phys i)
  · exact hostRead_of_accessed s (accessed_frame i)

/-- A write of `RXBUF[i]` while `BUSY = 0` replaces that byte alone. -/
theorem Block.writeRxbuf_idle (i : Fin 8) (v : Word) (b : Block) (h : b.busy = false) :
    b.writeRxbuf i v = { b with rxbuf := b.rxbuf.set i (v.extractLsb' 0 8) } := by
  simp [Block.writeRxbuf, h]

/-- A write of `RXBUF[i]` while `BUSY = 1` is dropped. -/
theorem Block.writeRxbuf_busy (i : Fin 8) (v : Word) (b : Block) (h : b.busy = true) :
    b.writeRxbuf i v = b.dropWrite := by
  simp [Block.writeRxbuf, h]

/-- Settles O46: each offset reaches its register, and only MODE and RXBUF take the write. -/
theorem windowWrites : Obligations.WindowWrites := by
  unfold Obligations.WindowWrites
  intro v s
  refine ⟨rfl, rfl, fun i hbusy => ?_, fun i => ⟨?_, ?_⟩, rfl, fun i => ?_⟩
  · refine ⟨s.blk.rxbuf.set i (v.extractLsb' 0 8), ?_, fun k => ?_⟩
    · rw [hostWrite_of_accessed v s (accessed_rxbuf i), ← Block.writeRxbuf_idle i v s.blk hbusy]
      rfl
    · simp [Vector.getElem_set, Fin.ext_iff, eq_comm]
  · exact hostWrite_of_accessed v s (accessed_raw i)
  · exact hostWrite_of_accessed v s (accessed_phys i)
  · exact hostWrite_of_accessed v s (accessed_frame i)

/-- Settles O9: a write of CMD is one acceptance, which BUSY drops and which clears OVR when it takes
place; BUSY drops a write of RXBUF too. -/
theorem busyWritesAreDropped : Obligations.BusyWritesAreDropped := by
  unfold Obligations.BusyWritesAreDropped
  have hcmd (w : Word) (s : State) : hostWrite 0x00 4 w s = submitWord w s := rfl
  refine ⟨fun w s hbusy => ⟨?_, fun i => ?_⟩, fun w s hbusy => ?_⟩
  · obtain ⟨f, hf, -⟩ := submitWord_accepts w s
    rw [hcmd, hf]
    exact s.accept_busy f hbusy
  · rw [hostWrite_of_accessed w s (accessed_rxbuf i)]
    simp [writeReg, State.withBlk, Block.writeRxbuf_busy i w s.blk hbusy, Block.dropWrite]
  · obtain ⟨f, hf, hovr⟩ := submitWord_accepts w s
    rw [hcmd, hf, s.accept_idle f hbusy]
    exact ⟨_, rfl, hovr s.blk⟩

end Sys2Proof.Machine
end

section
/-! Which accesses reach no register, and what a command in progress keeps (20_memory.md R71, R79,
R97). -/

namespace Sys2Proof.Machine

/-! ### Accesses that reach no register -/

/-- Inside the window an aligned 32-bit access reaches the register at its word (20_memory.md R78). -/
theorem accessed_aligned {off : Nat} (hwindow : off ≤ 0xFF) (haligned : off % 4 = 0) :
    accessed off 4 = .ok (regAtWord (off / 4)) := by
  simp [accessed, haligned, Nat.not_lt.mpr hwindow]

/-- The words of the window between the registers of R71. -/
theorem regAtWord_reserved {k : Nat}
    (h : k = 3 ∨ k = 15 ∨ k = 19 ∨ (21 ≤ k ∧ k ≤ 23) ∨ 38 ≤ k) : regAtWord k = .reserved := by
  rw [regAtWord, if_neg, if_neg, if_neg, dif_neg, dif_neg, dif_neg, if_neg, dif_neg] <;> omega

/-- A 32-bit access above the window. -/
theorem accessed_outsideWindow {off : Nat} (h : 0xFF < off) :
    accessed off 4 = .error .outsideWindow := by
  simp [accessed, h]

/-- An access of another width or at an unaligned offset reaches no register (20_memory.md R79). -/
theorem accessed_undefined {off width : Nat} (h : width ≠ 4 ∨ off % 4 ≠ 0) :
    ∃ r, accessed off width = .error r := by
  by_cases hwidth : width = 4
  · have haligned : off % 4 ≠ 0 := h.resolve_left (not_not_intro hwidth)
    subst hwidth
    by_cases hwindow : 0xFF < off
    · exact ⟨_, accessed_outsideWindow hwindow⟩
    · exact ⟨.unalignedAccess, by simp [accessed, hwindow, haligned]⟩
  · exact ⟨.accessWidth, by simp [accessed, hwidth]⟩

/-- An access that reaches no register is refused, read or write. -/
theorem hostAccess_refused {off width : Nat} {r : Refusal} (v : Word) (s : State)
    (h : accessed off width = .error r) :
    hostRead off width s = .refused r ∧ hostWrite off width v s = .refused r := by
  simp only [hostRead, hostWrite, h, and_self]

/-- Settles O47: each listed offset is that of a reserved word, and none is above 0xFF. -/
theorem reservedOffsetsReadZero : Obligations.ReservedOffsetsReadZero := by
  unfold Obligations.ReservedOffsetsReadZero
  refine ⟨fun off v s haligned hlisted => ?_, fun off v s habove => ?_⟩
  · have hword : regAtWord (off / 4) = .reserved := regAtWord_reserved (by omega)
    have hreach : accessed off 4 = .ok .reserved :=
      hword ▸ accessed_aligned (by omega) haligned
    exact ⟨hostRead_of_accessed s hreach, hostWrite_of_accessed v s hreach⟩
  · exact hostAccess_refused v s (accessed_outsideWindow habove)

/-- Settles O48: such an access reaches no register. -/
theorem undefinedAccessesAreRefused : Obligations.UndefinedAccessesAreRefused := by
  unfold Obligations.UndefinedAccessesAreRefused
  intro off width v s h
  obtain ⟨r, hr⟩ := accessed_undefined h
  exact ⟨r, hostAccess_refused v s hr⟩

/-! ### A command in progress -/

/-- While `BUSY = 1` a host write can change only MODE and OVR: the other writes are dropped
(10_state.md R42, R43). -/
theorem BlockWrite.of_busy {b b' : Block} (h : BlockWrite b b') (hbusy : b.busy = true) :
    ∃ sel ovr, b' = { b with modeSel := sel, ovr := ovr } := by
  cases h with
  | same => exact ⟨_, _, rfl⟩
  | mode v => exact ⟨_, _, rfl⟩
  | dropped _ => exact ⟨_, _, rfl⟩
  | stored _ hidle => simp [hbusy] at hidle
  | txc _ hidle => simp [hbusy] at hidle
  | illegal _ hidle => simp [hbusy] at hidle
  | decode _ hidle => simp [hbusy] at hidle
  | scale _ hidle => simp [hbusy] at hidle
  | frame _ _ hidle => simp [hbusy] at hidle

/-- A host step or tick writes the block at most once. -/
theorem agentStep_blockWrite {a : Agent} {s t : State} (ha : a = .host ∨ a = .tick)
    (h : agentStep a s = .next t) : BlockWrite s.blk t.blk := by
  obtain ⟨-, _, _, rfl, hwrite⟩ | ⟨rfl, -⟩ | ⟨rfl, -⟩ | ⟨-, rfl⟩ | ⟨rfl, -⟩ := agentStep_cases a s t h
  · exact hwrite
  · simp at ha
  · simp at ha
  · exact .same
  · simp at ha

/-- Settles O43: the one write that the host can make leaves all but MODE and OVR. -/
theorem commandInProgressIsUndisturbed : Obligations.CommandInProgressIsUndisturbed := by
  unfold Obligations.CommandInProgressIsUndisturbed
  intro a s t ha hbusy h
  obtain ⟨sel, ovr, hblk⟩ := (agentStep_blockWrite ha h).of_busy hbusy
  rw [hblk]
  exact ⟨rfl, rfl, rfl, rfl, rfl, rfl, hbusy⟩

end Sys2Proof.Machine
end

section
/-! The command words: a word from its fields, the rows of 30_encoding.md R104 as match and mask, and the
one instruction that a word encodes. -/

namespace Sys2Proof

open Sys2Proof.Machine

/-! ### The fields of a word -/

/-- A word is packed from five fields exactly when these are its fields. -/
theorem packWord_eq_iff (op : BitVec 4) (a : Addr) (off arg : Byte) (w : Word) :
    packWord op a off arg = w ↔
      fieldRsv w = 0 ∧ fieldOp w = op ∧ fieldA w = a ∧ fieldOff w = off ∧ fieldArg w = arg := by
  constructor
  · rintro rfl
    simp
  · rintro ⟨hrsv, rfl, rfl, rfl, rfl⟩
    exact packWord_fields w hrsv

/-- A packed word, written with shifts and ors (30_encoding.md R117). -/
theorem packWord_eq_shiftLeft_or (op : BitVec 4) (a : Addr) (off arg : Byte) :
    packWord op a off arg = op.zeroExtend 32 <<< 28 ||| a.zeroExtend 32 <<< 16 |||
      off.zeroExtend 32 <<< 8 ||| arg.zeroExtend 32 := by
  ext i hi
  simp [packWord]
  grind

/-- A match under a mask that keeps `OP` and `RSV` fixes them, and of the other fields what the mask
keeps. -/
theorem fields_of_and_mask {w m : Word} {op : BitVec 4} {a : Addr} {off arg : Byte}
    (h : w &&& m = packWord op a off arg)
    (hop : fieldOp m = BitVec.allOnes 4) (hrsv : fieldRsv m = BitVec.allOnes 5) :
    fieldRsv w = 0 ∧ fieldOp w = op ∧ fieldOff w &&& fieldOff m = off ∧
      fieldArg w &&& fieldArg m = arg := by
  obtain ⟨hr, ho, -, hoff, harg⟩ := (packWord_eq_iff op a off arg (w &&& m)).mp h.symm
  unfold fieldOp at ho hop ⊢
  unfold fieldRsv at hr hrsv ⊢
  rw [BitVec.extractLsb'_and, hop, BitVec.and_allOnes] at ho
  rw [BitVec.extractLsb'_and, hrsv, BitVec.and_allOnes] at hr
  exact ⟨hr, ho, BitVec.extractLsb'_and.symm.trans hoff, BitVec.extractLsb'_and.symm.trans harg⟩

/-! ### The instruction of a word -/

theorem whenUnusedZero_eq_ok {zero : Bool} {i j : Instr} (h : whenUnusedZero zero i = .ok j) :
    zero = true ∧ i = j := by
  cases zero with
  | true => exact ⟨rfl, Except.ok.inj h⟩
  | false => cases h

/-- A word with `RSV` zero is packed from its fields, its opcode read as a number. -/
theorem packWord_eq_of_fields {w : Word} {op : BitVec 4} {a : Addr} {off arg : Byte}
    (hrsv : fieldRsv w = 0) (hop : (fieldOp w).toNat = op.toNat) (ha : fieldA w = a)
    (hoff : fieldOff w = off) (harg : fieldArg w = arg) : packWord op a off arg = w :=
  (packWord_eq_iff op a off arg w).mpr ⟨hrsv, BitVec.eq_of_toNat_eq hop, ha, hoff, harg⟩

/-- In the row of a decoder command every field after `RSV` is zero. -/
theorem encode_of_decoderRow {w : Word} {i j : Instr} (op : BitVec 4) (hrsv : fieldRsv w = 0)
    (hop : (fieldOp w).toNat = op.toNat) (henc : encode j = packWord op 0 0 0)
    (h : whenUnusedZero (fieldA w == 0 && fieldOff w == 0 && fieldArg w == 0) j = .ok i) :
    encode i = w := by
  obtain ⟨hzero, rfl⟩ := whenUnusedZero_eq_ok h
  simp only [Bool.and_eq_true, beq_iff_eq] at hzero
  obtain ⟨⟨ha, hoff⟩, harg⟩ := hzero
  exact henc.trans (packWord_eq_of_fields hrsv hop ha hoff harg)

/-- A command word is the word of the instruction that it decodes to: in each row the fields that are no
operand are zero. -/
theorem encode_of_decodeWord (w : Word) (i : Instr) (h : decodeWord w = .ok i) : encode i = w := by
  unfold decodeWord at h
  split at h
  case isFalse => cases h
  case isTrue hrsv =>
    split at h
    case h_1 hop =>
      obtain ⟨hzero, rfl⟩ := whenUnusedZero_eq_ok h
      simp only [Bool.and_eq_true, beq_iff_eq] at hzero
      obtain ⟨hoff, harg⟩ := hzero
      exact packWord_eq_of_fields hrsv hop rfl hoff harg
    case h_2 hop =>
      obtain ⟨hzero, rfl⟩ := whenUnusedZero_eq_ok h
      exact packWord_eq_of_fields hrsv hop rfl rfl (beq_iff_eq.mp hzero)
    case h_3 hop =>
      split at h <;> cases h
      exact packWord_eq_of_fields hrsv hop rfl rfl rfl
    case h_4 hop =>
      cases h
      exact packWord_eq_of_fields hrsv hop rfl rfl rfl
    case h_5 hop => exact encode_of_decoderRow 8 hrsv hop rfl h
    case h_6 hop => exact encode_of_decoderRow 9 hrsv hop rfl h
    case h_7 hop => exact encode_of_decoderRow 10 hrsv hop rfl h
    case h_8 => cases h

/-- A word decodes to an instruction exactly when that is well formed and the word is its encoding. -/
theorem decodeWord_eq_ok_iff (w : Word) (i : Instr) :
    decodeWord w = .ok i ↔ i.wellFormed = true ∧ encode i = w := by
  constructor
  · exact fun h => ⟨decodeWord_wellFormed w i h, encode_of_decodeWord w i h⟩
  · rintro ⟨hw, rfl⟩
    exact decodeWord_encode i hw

/-- The word of an RDMULTI whose `COUNT` is out of range is illegal (30_encoding.md R107). -/
theorem decodeWord_encode_rdmulti_illegal (a : Addr) (off : Byte) {count : Byte}
    (h : countInRange count = false) :
    decodeWord (encode (.rdmulti a off count)) = .error .countOutOfRange := by
  simp [encode, decodeWord, h]

/-- Settles O1: the fields of a packed word are the operands, so the row gives them back. -/
theorem encodedInstructionDecodesBack : Obligations.EncodedInstructionDecodesBack := by
  unfold Obligations.EncodedInstructionDecodesBack
  exact decodeWord_encode

/-- Settles O2: what a word decodes to is well formed and encodes to it. -/
theorem commandWordHasOneMeaning : Obligations.CommandWordHasOneMeaning := by
  unfold Obligations.CommandWordHasOneMeaning
  exact fun w i => (decodeWord_eq_ok_iff w i).mp

/-! ### The rows of the table: a word in the row of a TXC command is one of its encodings -/

theorem exists_encode_probe {w : Word} (h : w &&& 0xFF80FFFF#32 = 0x10000000#32) :
    ∃ a, encode (.probe a) = w := by
  obtain ⟨hrsv, hop, hoff, harg⟩ :=
    fields_of_and_mask (op := 1) (a := 0) (off := 0) (arg := 0) h rfl rfl
  exact ⟨_, (packWord_eq_iff _ _ _ _ w).mpr ⟨hrsv, hop, rfl,
    BitVec.and_allOnes.symm.trans hoff, BitVec.and_allOnes.symm.trans harg⟩⟩

theorem exists_encode_rdreg {w : Word} (h : w &&& 0xFF8000FF#32 = 0x20000000#32) :
    ∃ a off, encode (.rdreg a off) = w := by
  obtain ⟨hrsv, hop, -, harg⟩ :=
    fields_of_and_mask (op := 2) (a := 0) (off := 0) (arg := 0) h rfl rfl
  exact ⟨_, _, (packWord_eq_iff _ _ _ _ w).mpr ⟨hrsv, hop, rfl, rfl,
    BitVec.and_allOnes.symm.trans harg⟩⟩

theorem exists_encode_rdmulti {w : Word} (h : w &&& 0xFF800000#32 = 0x30000000#32) :
    ∃ a off, encode (.rdmulti a off (fieldArg w)) = w := by
  obtain ⟨hrsv, hop, -, -⟩ :=
    fields_of_and_mask (op := 3) (a := 0) (off := 0) (arg := 0) h rfl rfl
  exact ⟨_, _, (packWord_eq_iff _ _ _ _ w).mpr ⟨hrsv, hop, rfl, rfl, rfl⟩⟩

theorem exists_encode_wrreg {w : Word} (h : w &&& 0xFF800000#32 = 0x40000000#32) :
    ∃ a off val, encode (.wrreg a off val) = w := by
  obtain ⟨hrsv, hop, -, -⟩ :=
    fields_of_and_mask (op := 4) (a := 0) (off := 0) (arg := 0) h rfl rfl
  exact ⟨_, _, _, (packWord_eq_iff _ _ _ _ w).mpr ⟨hrsv, hop, rfl, rfl, rfl⟩⟩

/-- Settles O3: a word that decodes is the encoding of a well-formed instruction, which lies in its row;
a word in a row is the encoding of its own fields. -/
theorem classificationFollowsTableRows : Obligations.ClassificationFollowsTableRows := by
  unfold Obligations.ClassificationFollowsTableRows
  intro w
  simp only [decodeWord_eq_ok_iff]
  refine ⟨⟨?_, ?_⟩, ⟨?_, ?_⟩⟩
  · rintro ⟨i, ⟨hw, rfl⟩, htxc⟩
    cases i with
    | probe a => exact .inl (Laws.TableRow.probe a)
    | rdreg a off => exact .inr (.inl (Laws.TableRow.rdreg a off))
    | wrreg a off val => exact .inr (.inr (.inl (Laws.TableRow.wrreg a off val)))
    | rdmulti a off count =>
      have harg : (encode (.rdmulti a off count)).extractLsb' 0 8 = count := fieldArg_packWord ..
      refine .inr (.inr (.inr ⟨Laws.TableRow.rdmulti a off count, ?_⟩))
      rw [harg]
      exact of_decide_eq_true hw
    | decode => cases htxc
    | scale => cases htxc
    | frame => cases htxc
  · rintro (h | h | h | ⟨h, hcount⟩)
    · obtain ⟨a, ha⟩ := exists_encode_probe h
      exact ⟨_, ⟨rfl, ha⟩, rfl⟩
    · obtain ⟨a, off, ha⟩ := exists_encode_rdreg h
      exact ⟨_, ⟨rfl, ha⟩, rfl⟩
    · obtain ⟨a, off, val, ha⟩ := exists_encode_wrreg h
      exact ⟨_, ⟨rfl, ha⟩, rfl⟩
    · obtain ⟨a, off, ha⟩ := exists_encode_rdmulti h
      exact ⟨.rdmulti a off (fieldArg w), ⟨decide_eq_true hcount, ha⟩, rfl⟩
  · rintro ⟨i, ⟨-, rfl⟩, hdec⟩
    cases i with
    | decode => exact .inl rfl
    | scale => exact .inr (.inl rfl)
    | frame => exact .inr (.inr rfl)
    | probe a => cases hdec
    | rdreg a off => cases hdec
    | rdmulti a off count => cases hdec
    | wrreg a off val => cases hdec
  · rintro (rfl | rfl | rfl)
    · exact ⟨.decode, ⟨rfl, rfl⟩, rfl⟩
    · exact ⟨.scale, ⟨rfl, rfl⟩, rfl⟩
    · exact ⟨.frame, ⟨rfl, rfl⟩, rfl⟩

/-- Settles O4: each word is packed, and a zero field adds nothing to the ors. -/
theorem assemblyGivesCommandWord : Obligations.AssemblyGivesCommandWord := by
  unfold Obligations.AssemblyGivesCommandWord
  refine ⟨fun a => ?_, fun a off => ?_, fun a off n => ?_, fun a off val => ?_, rfl, rfl, rfl⟩
  · exact (packWord_eq_shiftLeft_or 1 a 0 0).trans (by simp)
  · exact (packWord_eq_shiftLeft_or 2 a off 0).trans (by simp)
  · exact packWord_eq_shiftLeft_or 3 a off n
  · exact packWord_eq_shiftLeft_or 4 a off val

/-- Settles O5: the five words are encodings; the eight others are classified one by one. -/
theorem workedWordsDecode : Obligations.WorkedWordsDecode := by
  unfold Obligations.WorkedWordsDecode
  exact ⟨decodeWord_encode (.probe 0x18) rfl, decodeWord_encode (.probe 127) rfl,
    decodeWord_encode (.rdreg 0x18 0x27) rfl, decodeWord_encode (.rdmulti 0x18 0x28 6) rfl,
    decodeWord_encode (.wrreg 0x18 0x20 0x57) rfl,
    List.forall_iff_forall_mem.mp ⟨rfl, rfl, rfl, rfl, rfl, rfl, rfl, rfl⟩⟩

end Sys2Proof
end

section
/-! Submitting an instruction: what acceptance leaves unchanged, the drop while BUSY, and the step that runs
a submitted word (30_encoding.md R100, R118). -/

namespace Sys2Proof.Machine

/-! ### What an instruction leaves unchanged -/

/-- What submitting `i` leaves unchanged in the block (30_encoding.md R100, 40_transactions.md R132,
41_decoder.md R173, R176, R180). -/
structure Block.Framed (i : Instr) (b b' : Block) : Prop where
  modeSel : b'.modeSel = b.modeSel
  rxbuf : b'.rxbuf = b.rxbuf
  raw : i ≠ .decode → b'.raw = b.raw
  phys : i ≠ .scale → b'.phys = b.phys
  frame : i ≠ .frame → b'.frame = b.frame ∧ b'.framelen = b.framelen
  sequencer : isTxc i = false → b'.busy = b.busy ∧ b'.phase = b.phase ∧ b'.idx = b.idx ∧
    b'.pcode = b.pcode ∧ b'.rxcnt = b.rxcnt

theorem Block.dropWrite_framed (i : Instr) (b : Block) : b.Framed i b.dropWrite := by
  constructor <;> simp

theorem Block.acceptIllegal_framed (i : Instr) (w : Word) (b : Block) :
    b.Framed i (b.acceptIllegal w) := by
  constructor <;> simp

theorem Block.acceptTxc_framed {i : Instr} (h : isTxc i = true) (w : Word) (b : Block) :
    b.Framed i (b.acceptTxc w) := by
  constructor <;> simp [h]

theorem Block.setRaw_framed (r : Vector Half 3) (w : Word) (b : Block) :
    b.Framed .decode ((b.acceptDecoder w).setRaw r) := by
  constructor <;> simp

theorem Block.setPhys_framed (p : Vector Word 3) (w : Word) (b : Block) :
    b.Framed .scale ((b.acceptDecoder w).setPhys p) := by
  constructor <;> simp

theorem Block.setFrame_framed (f : Vector Byte 14) (n : BitVec 4) (w : Word) (b : Block) :
    b.Framed .frame ((b.acceptDecoder w).setFrame f n) := by
  constructor <;> simp

/-- An acceptance that keeps a frame keeps it while BUSY too, where the write is dropped. -/
theorem State.accept_framed {i : Instr} {f : Block → Block} {s : State}
    (hf : s.blk.Framed i (f s.blk)) :
    ∃ b, s.accept f = .next { s with blk := b } ∧ s.blk.Framed i b := by
  cases hbusy : s.blk.busy with
  | true => exact ⟨_, s.accept_busy f hbusy, Block.dropWrite_framed i s.blk⟩
  | false => exact ⟨_, s.accept_idle f hbusy, hf⟩

/-- Submitting an instruction answers a state that differs only in the block, and keeps its frame. -/
theorem exec_framed (i : Instr) (s : State) :
    ∃ b, exec i s = .next { s with blk := b } ∧ s.blk.Framed i b := by
  cases i with
  | probe a => exact s.accept_framed (Block.acceptTxc_framed rfl _ _)
  | rdreg a off => exact s.accept_framed (Block.acceptTxc_framed rfl _ _)
  | rdmulti a off count =>
    cases hcount : countInRange count with
    | true =>
      simp only [exec, execRdmulti_legal a off count s hcount]
      exact s.accept_framed (Block.acceptTxc_framed rfl _ _)
    | false =>
      simp only [exec, execRdmulti_illegal a off count s hcount]
      exact s.accept_framed (Block.acceptIllegal_framed _ _ _)
  | wrreg a off val => exact s.accept_framed (Block.acceptTxc_framed rfl _ _)
  | decode => exact s.accept_framed (Block.setRaw_framed _ _ _)
  | scale => exact s.accept_framed (Block.setPhys_framed _ _ _)
  | frame => exact s.accept_framed (Block.setFrame_framed _ _ _ _)

/-- Settles O12: only the block changes, and every instruction keeps its frame. -/
theorem instructionFrame : Obligations.InstructionFrame := by
  unfold Obligations.InstructionFrame
  intro i s t h
  obtain ⟨b, hexec, hframe⟩ := exec_framed i s
  cases hexec.symm.trans h
  exact ⟨rfl, rfl, rfl, rfl, rfl, rfl, rfl, hframe.modeSel, hframe.rxbuf, fun _ => rfl, hframe.raw,
    hframe.phys, hframe.frame, hframe.sequencer⟩

/-- Settles O11: submitting an instruction is one acceptance, and both of its cases answer. -/
theorem noInstructionStops : Obligations.NoInstructionStops := by
  unfold Obligations.NoInstructionStops
  intro i s
  obtain ⟨f, hf, hacc⟩ := exec_accepts i s
  cases hbusy : s.blk.busy with
  | true => exact ⟨_, hf.trans (s.accept_busy f hbusy), fun hidle => by cases hidle⟩
  | false => exact ⟨_, hf.trans (s.accept_idle f hbusy), fun _ => hacc s.blk⟩

/-- Settles O8: the word is rejected, and `exec` accepts it as an illegal one. -/
theorem rdmultiCountOutOfRangeIsIllegal : Obligations.RdmultiCountOutOfRangeIsIllegal := by
  unfold Obligations.RdmultiCountOutOfRangeIsIllegal
  intro a off count s hcount hbusy
  have hrange : countInRange count = false := decide_eq_false (by unfold rxDepth; omega)
  refine ⟨?_, (execRdmulti_illegal a off count s hrange).trans (s.accept_idle _ hbusy)⟩
  rw [decodeWord_encode_rdmulti_illegal a off hrange]
  rfl

/-- Settles O10: submitting an instruction is one acceptance, which BUSY drops. -/
theorem instructionWhileBusyIsDropped : Obligations.InstructionWhileBusyIsDropped := by
  unfold Obligations.InstructionWhileBusyIsDropped
  intro i s hbusy
  obtain ⟨f, hf, -⟩ := exec_accepts i s
  exact hf.trans (s.accept_busy f hbusy)

/-! ### The step that runs a submitted word -/

/-- The first agent of the schedule moves (20_memory.md R94). -/
theorem step_of_sched {s : State} {a : Agent} {rest : List Agent} (h : s.sched = a :: rest) :
    step s = agentStep a { s with sched := rest } := by
  simp only [step, State.choose, h]

/-- When the host is scheduled and its program submits a word, the step is that submission
(30_encoding.md R118). -/
theorem step_of_submit {s : State} {w : Word} {rest : List Agent} {more : List Directive}
    (hsched : s.sched = .host :: rest) (hprog : s.host.prog = .submit w :: more) :
    step s = submitWord w { s with sched := rest, host := { s.host with prog := more } } := by
  rw [step_of_sched hsched]
  simp only [agentStep, hostStep, hprog, directiveStep]

theorem submitWord_of_decodeWord {w : Word} {i : Instr} (h : decodeWord w = .ok i) (s : State) :
    submitWord w s = exec i s := by
  simp only [submitWord, h]

/-- A placed word is submitted by the very next step. -/
theorem step_placeWord (w : Word) (s : State) : step (s.placeWord w) = submitWord w s :=
  step_of_submit rfl rfl

/-- Settles O49: the chosen host takes the word from its program and writes it to CMD. -/
theorem stepRunsTheSubmittedInstruction : Obligations.StepRunsTheSubmittedInstruction := by
  unfold Obligations.StepRunsTheSubmittedInstruction
  refine ⟨fun s w i rest more hw hsched hprog => ?_, fun s w i hw => ?_, fun s w => ?_,
    fun s a rest hsched => step_of_sched hsched⟩
  · exact (step_of_submit hsched hprog).trans (submitWord_of_decodeWord hw _)
  · exact (step_placeWord w s).trans (submitWord_of_decodeWord hw s)
  · exact step_placeWord w s

end Sys2Proof.Machine
end

section
/-! What each phase of a TXC command names and does (40_transactions.md R131, R133 to R138). -/

namespace Sys2Proof.Machine

variable {p : Params} {i : Instr} {b : Block} {a : Addr} {v : Byte} {r : Response}

/-! ### The primitive that PHASE names -/

theorem nextPrim_pStart (hph : b.phase = .pStart) (ha : busAddr i = some a) :
    nextPrim p i b = some (.start a .w) := by
  simp [nextPrim, hph, ha]

theorem nextPrim_pOffset (hph : b.phase = .pOffset) (ho : offsetByte p i = some v) :
    nextPrim p i b = some (.wbyte v) := by
  simp [nextPrim, hph, ho]

theorem nextPrim_pWdata (hph : b.phase = .pWdata) (hv : writeValue i = some v) :
    nextPrim p i b = some (.wbyte v) := by
  simp [nextPrim, hph, hv]

theorem nextPrim_pRestart (hph : b.phase = .pRestart) (hn : readCount i ≠ 0)
    (ha : busAddr i = some a) : nextPrim p i b = some (.restart a .r) := by
  simp [nextPrim, hph, hn, ha]

theorem nextPrim_pRdata (hph : b.phase = .pRdata) (hlt : b.idx.toNat < readCount i) :
    nextPrim p i b = some (.rbyte (decide (b.idx.toNat + 1 ≠ readCount i))) := by
  simp [nextPrim, hph, hlt]

theorem nextPrim_pStop (hph : b.phase = .pStop) (htxc : isTxc i = true) :
    nextPrim p i b = some .stop := by
  simp [nextPrim, hph, htxc]

/-! ### The rule that takes the response -/

theorem Block.respond_pStart (hph : b.phase = .pStart) : b.respond i r = phaseStart i r b := by
  simp [Block.respond, hph]

theorem Block.respond_pOffset (hph : b.phase = .pOffset) : b.respond i r = phaseOffset i r b := by
  simp [Block.respond, hph]

theorem Block.respond_pWdata (hph : b.phase = .pWdata) : b.respond i r = phaseWdata r b := by
  simp [Block.respond, hph]

theorem Block.respond_pRestart (hph : b.phase = .pRestart) : b.respond i r = phaseRestart r b := by
  simp [Block.respond, hph]

theorem Block.respond_pRdata (hph : b.phase = .pRdata) : b.respond i r = phaseRdata i r b := by
  simp [Block.respond, hph]

theorem Block.respond_pStop (hph : b.phase = .pStop) : b.respond i r = phaseStop i r b := by
  simp [Block.respond, hph]

/-! ### The TXC step in each phase -/

/-- Settles O22: TXC takes no step of its own then. -/
theorem noTxcStepWhileIdle : Obligations.NoTxcStepWhileIdle := by
  unfold Obligations.NoTxcStepWhileIdle
  intro s hbusy
  simp [agentStep, hbusy]

/-- Settles O23: PHASE names START, and the acknowledge leads PROBE to its STOP, every other TXC command
to its offset. -/
theorem startPhase : Obligations.StartPhase := by
  unfold Obligations.StartPhase
  intro s i a r e hbusy hph hc ha hans
  have hstep {b : Block} (hb : phaseStart i r s.blk = some b) :=
    agentStep_txc_eq s i _ r e b hbusy hc (nextPrim_pStart hph ha) hans
      ((Block.respond_pStart hph).trans hb)
  refine ⟨?_, ?_, ?_, ?_⟩
  · rintro rfl ⟨a', rfl⟩
    exact hstep rfl
  · rintro rfl hprobe
    cases i with
    | probe a' => exact absurd rfl (hprobe a')
    | rdreg a' off => exact hstep rfl
    | rdmulti a' off n => exact hstep rfl
    | wrreg a' off val => exact hstep rfl
    | decode => cases ha
    | scale => cases ha
    | frame => cases ha
  · rintro rfl
    exact hstep rfl
  · rintro rfl
    exact hstep rfl

/-- Settles O24: PHASE names the offset byte, and the acknowledge leads WRREG, the one command with a
value, to it, and the reads to their RESTART. -/
theorem offsetPhase : Obligations.OffsetPhase := by
  unfold Obligations.OffsetPhase
  intro s i v r e hbusy hph hc hcmd hans
  have hoffset : offsetByte s.params i = some v := by
    obtain ⟨_, rfl⟩ | ⟨_, _, _, rfl, rfl⟩ | ⟨_, _, rfl⟩ := hcmd <;> rfl
  have hstep {b : Block} (hb : phaseOffset i r s.blk = some b) :=
    agentStep_txc_eq s i _ r e b hbusy hc (nextPrim_pOffset hph hoffset) hans
      ((Block.respond_pOffset hph).trans hb)
  refine ⟨?_, ?_, ?_, ?_⟩
  · rintro rfl ⟨a, off, val, rfl⟩
    exact hstep rfl
  · rintro rfl hwrite
    obtain ⟨_, rfl⟩ | ⟨_, _, _, rfl, -⟩ | ⟨a, val, rfl⟩ := hcmd
    · exact hstep rfl
    · exact hstep rfl
    · exact absurd rfl (hwrite a v val)
  · rintro rfl
    exact hstep rfl
  · rintro rfl
    exact hstep rfl

/-- Settles O25: PHASE names the value, and every acknowledge leads to the STOP. -/
theorem writeDataPhase : Obligations.WriteDataPhase := by
  unfold Obligations.WriteDataPhase
  intro s a off v r e hbusy hph hc hans
  have hstep {b : Block} (hb : phaseWdata r s.blk = some b) :=
    agentStep_txc_eq s _ _ r e b hbusy hc (nextPrim_pWdata hph rfl) hans
      ((Block.respond_pWdata hph).trans hb)
  refine ⟨?_, ?_, ?_⟩
  · rintro rfl
    exact hstep rfl
  · rintro rfl
    exact hstep rfl
  · rintro rfl
    exact hstep rfl

/-- RDREG and RDMULTI are the commands that read at least one byte. -/
theorem readCount_ne_zero (hw : i.wellFormed = true)
    (hread : (∃ off, i = .rdreg a off) ∨ (∃ off n, i = .rdmulti a off n)) : readCount i ≠ 0 := by
  obtain ⟨off, rfl⟩ | ⟨off, n, rfl⟩ := hread
  · exact Nat.one_ne_zero
  · exact Nat.one_le_iff_ne_zero.mp (of_decide_eq_true hw).1

/-- Settles O26: PHASE names the RESTART of a command that reads, and every acknowledge leads to its
first byte. -/
theorem restartPhase : Obligations.RestartPhase := by
  unfold Obligations.RestartPhase
  intro s i a r e hbusy hph hc hread hans
  have ha : busAddr i = some a := by
    obtain ⟨_, rfl⟩ | ⟨_, _, rfl⟩ := hread <;> rfl
  have hn := readCount_ne_zero (s.blk.command_wellFormed i hc) hread
  have hstep {b : Block} (hb : phaseRestart r s.blk = some b) :=
    agentStep_txc_eq s i _ r e b hbusy hc (nextPrim_pRestart hph hn ha) hans
      ((Block.respond_pRestart hph).trans hb)
  refine ⟨?_, ?_, ?_⟩
  · rintro rfl
    exact hstep rfl
  · rintro rfl
    exact hstep rfl
  · rintro rfl
    exact hstep rfl

/-- `RXBUF[IDX]` takes the byte, every other byte stays (40_transactions.md R137). -/
theorem Block.storeRx_getElem (b : Block) (v : Byte) (k : Fin 8) :
    (b.storeRx v).rxbuf[k] = if k.val = b.idx.toNat then v else b.rxbuf[k] := by
  simp [Vector.getElem_setIfInBounds, eq_comm]

/-- The byte that is not the last advances IDX (40_transactions.md R137). -/
theorem phaseRdata_more (hmore : b.idx.toNat + 1 ≠ readCount i) :
    phaseRdata i (.data v) b = some { b.storeRx v with idx := b.idx + 1 } := by
  simp [phaseRdata, hmore]

/-- The last byte leads to the STOP (40_transactions.md R137). -/
theorem phaseRdata_last (hlast : b.idx.toNat + 1 = readCount i) :
    phaseRdata i (.data v) b = some { b.storeRx v with phase := .pStop } := by
  simp [phaseRdata, hlast]

/-- Settles O27: PHASE names an RBYTE that is acknowledged unless it is the last, and the byte goes to
`RXBUF[IDX]`. -/
theorem readDataPhase : Obligations.ReadDataPhase := by
  unfold Obligations.ReadDataPhase
  intro s i n more r e hbusy hph hc hread hlt hmore hans
  have hn : readCount i = n := by
    obtain ⟨_, _, rfl, rfl⟩ | ⟨_, _, _, rfl, rfl⟩ := hread <;> rfl
  subst hn
  have hlast : more = false ↔ s.blk.idx.toNat + 1 = readCount i := hmore.trans (by omega)
  have hacked : more = decide (s.blk.idx.toNat + 1 ≠ readCount i) := by
    cases more <;> simpa using hlast
  have hprim : nextPrim s.params i s.blk = some (.rbyte more) := by
    rw [nextPrim_pRdata hph hlt, hacked]
  have hstep {b : Block} (hb : phaseRdata i r s.blk = some b) :=
    agentStep_txc_eq s i _ r e b hbusy hc hprim hans ((Block.respond_pRdata hph).trans hb)
  refine ⟨?_, ?_⟩
  · rintro v rfl
    refine ⟨(s.blk.storeRx v).rxbuf, s.blk.storeRx_getElem v, ?_⟩
    cases more with
    | true => exact hstep (phaseRdata_more (by simpa using hlast))
    | false => exact hstep (phaseRdata_last (by simpa using hlast))
  · rintro rfl
    exact hstep rfl

/-- RXCNT of a command that ended with the code `c` (40_transactions.md R138). -/
theorem Block.finish_rxcnt_readCount (b : Block) (c : Code) (i : Instr) :
    (b.finish c (readCount i)).rxcnt = match c, i with
      | .ok, .rdreg _ _ => 1
      | .ok, .rdmulti _ _ count => count.setWidth 4
      | _, _ => 0 := by
  cases c with
  | ok => cases i <;> simp [readCount]
  | noack => rfl
  | timeout => rfl
  | illegal => rfl

/-- Settles O28: PHASE names STOP, which ends the command with the first failure, its own timeout being
the last. -/
theorem stopPhase : Obligations.StopPhase := by
  unfold Obligations.StopPhase
  intro s i c n r e hbusy hph hc htxc hans hr hcode hcount
  have hfinish : phaseStop i r s.blk = some (s.blk.finish c (readCount i)) := by
    obtain rfl | rfl := hr
    · rw [hcode]
      rfl
    · simp [hcode, phaseStop]
  have hn : (s.blk.finish c (readCount i)).rxcnt = n :=
    (s.blk.finish_rxcnt_readCount c i).trans hcount.symm
  rw [← hn]
  exact agentStep_txc_eq s i _ r e _ hbusy hc (nextPrim_pStop hph htxc) hans
    ((Block.respond_pStop hph).trans hfinish)

end Sys2Proof.Machine
end

section
/-! The TXC step and the bus: the shape of the trace, the one primitive of a step, and the steps that issue
none (40_transactions.md R130, R145). -/

namespace Sys2Proof.Machine

variable {p : Params} {i : Instr} {b b' : Block} {q : Prim} {r : Response}

/-! ### The shape of the bus trace -/

/-- The bus is inside a transaction (40_transactions.md R145). -/
def Block.busOpen (b : Block) : Bool := decide (b.phase ≠ .idle ∧ b.phase ≠ .pStart)

theorem State.busBracketed_iff (s : State) :
    s.busBracketed ↔ busAfterTrace false s.trace = some s.blk.busOpen := Iff.rfl

theorem busAfterTrace_append (o : Bool) (l m : List TraceEntry) :
    busAfterTrace o (l ++ m) = (busAfterTrace o l).bind (busAfterTrace · m) := by
  induction l generalizing o with
  | nil => rfl
  | cons x l ih =>
    obtain ⟨q, r⟩ := x
    cases q <;> cases o <;> simp [busAfterTrace, ih]

/-- The primitive that PHASE names fits the bus as PHASE has it, and only STOP leaves it closed. -/
theorem busAfterTrace_nextPrim (hq : nextPrim p i b = some q) :
    busAfterTrace b.busOpen [(q, r)] = some (decide (b.phase ≠ .pStop)) := by
  unfold nextPrim at hq
  unfold Block.busOpen
  cases hph : b.phase <;> simp only [hph] at hq
  case idle => cases hq
  case pStart | pOffset | pWdata =>
    obtain ⟨_, -, rfl⟩ := Option.map_eq_some_iff.mp hq
    rfl
  case pRestart =>
    split at hq
    · cases hq
    · obtain ⟨_, -, rfl⟩ := Option.map_eq_some_iff.mp hq
      rfl
  case pRdata | pStop =>
    split at hq <;> cases hq
    rfl

/-- Every response but that of STOP leaves PHASE inside the transaction. -/
theorem TxcEffect.busOpen (h : TxcEffect i b b') (htxc : isTxc i = true) :
    b'.busOpen = decide (b.phase ≠ .pStop) := by
  cases h with
  | aborted _ hph _ => simp [Block.busOpen, hph]
  | started hph => cases i <;> simp_all [Block.busOpen, Block.started, isTxc, busAddr]
  | offsetSent hph =>
    unfold Block.busOpen
    split <;> simp [hph]
  | valueSent hph => simp [Block.busOpen, hph]
  | restarted hph => simp [Block.busOpen, hph]
  | lastByte _ hph _ => simp [Block.busOpen, hph]
  | byte _ hph _ => simp [Block.busOpen, hph]
  | finished _ hph _ => simp [Block.busOpen, hph]

/-- A TXC step appends to a well-shaped trace a primitive that fits it. -/
theorem txcStep_keeps_busBracketed (s t : State) (hbus : s.busBracketed)
    (h : txcStep s = .next t) : t.busBracketed := by
  obtain ⟨i, q, r, e, b, -, hq, -, hb, rfl⟩ := txcStep_cases s t h
  have heff := s.blk.respond_effect i r b hb
  rw [State.busBracketed_iff] at hbus ⊢
  rw [busAfterTrace_append, hbus, Option.bind_some, busAfterTrace_nextPrim hq,
    heff.busOpen (isTxc_of_nextPrim (Option.isSome_of_eq_some hq))]

/-- Of the host's writes only the acceptance of a TXC command changes PHASE, from IDLE to P_START, where
the bus is still closed. -/
theorem BlockWrite.busOpen (h : BlockWrite b b') (hinv : b.Inv p) : b'.busOpen = b.busOpen := by
  cases h with
  | txc _ hbusy => simp [Block.busOpen, hinv.phase_idle hbusy]
  | _ => rfl

/-- The step of each agent keeps the shape of the bus trace. -/
theorem agentStep_keeps_busBracketed (a : Agent) (s t : State) (hinv : s.Inv)
    (hbus : s.busBracketed) (h : agentStep a s = .next t) : t.busBracketed := by
  obtain ⟨-, _, b, rfl, hwrite⟩ | ⟨-, -, htxc⟩ | ⟨-, -, rfl⟩ | ⟨-, rfl⟩ | ⟨-, rfl⟩ :=
    agentStep_cases a s t h
  · rw [State.busBracketed_iff] at hbus ⊢
    exact hbus.trans (congrArg some (hwrite.busOpen hinv.blk).symm)
  · exact txcStep_keeps_busBracketed s t hbus htxc
  · exact hbus
  · exact hbus
  · exact rfl

/-- Settles O38: each agent keeps the shape, and choosing the agent touches the schedule only. -/
theorem stepKeepsBusBracketed : Obligations.StepKeepsBusBracketed := by
  unfold Obligations.StepKeepsBusBracketed
  intro s t hinv hbus h
  obtain ⟨a, l, n, ha⟩ := step_cases s t h
  exact agentStep_keeps_busBracketed a { s with sched := l, clock := n } t ⟨hinv.blk, hinv.env⟩
    hbus ha

/-! ### The one primitive of a TXC step -/

/-- The response of a primitive leaves CMDREG, OVR and MODE alone. -/
theorem TxcEffect.control_registers (h : TxcEffect i b b') :
    b'.cmdreg = b.cmdreg ∧ b'.ovr = b.ovr ∧ b'.modeSel = b.modeSel := by
  cases h with
  | started _ => cases i <;> exact ⟨rfl, rfl, rfl⟩
  | _ => exact ⟨rfl, rfl, rfl⟩

/-- A busy TXC whose next primitive is answered inside its response set takes its step: the block changes
by one effect of the response. -/
theorem agentStep_txc_progress {s : State} (hbusy : s.blk.busy = true)
    (hc : s.blk.command = some i) (hq : nextPrim s.params i s.blk = some q)
    (hans : s.answersInSet) :
    ∃ r e b, q.allows r = true ∧ TxcEffect i s.blk b ∧
      agentStep .txc s = .next { s with blk := b, env := e, trace := s.trace ++ [(q, r)] } := by
  have hallow := hans i q (by simp [State.pending, hc, hq])
  obtain ⟨b, hb⟩ := s.blk.respond_allowed s.params i q _ hq hallow
  exact ⟨_, _, b, hallow, s.blk.respond_effect i _ b hb,
    agentStep_txc_eq s i q _ _ b hbusy hc hq rfl hb⟩

/-- Settles O29: under the invariant PHASE names a primitive, whose answer TXC takes. -/
theorem busyBlockIssuesOnePrimitive : Obligations.BusyBlockIssuesOnePrimitive := by
  unfold Obligations.BusyBlockIssuesOnePrimitive
  intro s hinv henv hbusy
  have hans : s.answersInSet := henv.elim s.answersInSet_of_wellBehaved id
  obtain ⟨i, hc, hprim⟩ := hinv.blk.sequenced hbusy
  obtain ⟨q, hq⟩ := Option.isSome_iff_exists.mp hprim
  obtain ⟨r, e, b, hallow, heff, hstep⟩ := agentStep_txc_progress hbusy hc hq hans
  obtain ⟨hcmdreg, hovr, hmode⟩ := heff.control_registers
  obtain ⟨hraw, hphys, hframe, hlen⟩ := heff.decoder_registers
  exact ⟨i, q, r, _, hc, hq, hallow, hstep, rfl, rfl, hcmdreg, hovr, hmode, hraw, hphys, hframe,
    hlen⟩

/-- Settles O30: a host step changes the host's own side and the block, a tick PEND. -/
theorem onlyTxcTouchesTheBus : Obligations.OnlyTxcTouchesTheBus := by
  unfold Obligations.OnlyTxcTouchesTheBus
  intro a s t ha h
  obtain ⟨-, _, _, rfl, -⟩ | ⟨rfl, -⟩ | ⟨rfl, -⟩ | ⟨-, rfl⟩ | ⟨rfl, -⟩ := agentStep_cases a s t h
  · exact ⟨rfl, rfl⟩
  · simp at ha
  · simp at ha
  · exact ⟨rfl, rfl⟩
  · simp at ha

end Sys2Proof.Machine
end

section
/-! No step faults (40_transactions.md R144): the host is refused at most, and PHASE names a primitive
whenever TXC is busy. One lemma for each operation of the host, tagged `simp` for the next. -/

namespace Sys2Proof.Machine

/-- The outcome is a next state or a refusal. -/
def NoFault (o : StepOutcome) : Prop := ∀ f, o ≠ .fault f

@[simp] theorem noFault_next (s : State) : NoFault (.next s) := fun _ => nofun

@[simp] theorem noFault_refused (r : Refusal) : NoFault (.refused r) := fun _ => nofun

/-! ### The host -/

@[simp] theorem hostWrite_noFault (off width : Nat) (v : Word) (s : State) :
    NoFault (hostWrite off width v s) := by
  unfold hostWrite
  split
  · rename_i reg _
    obtain ⟨b, hb, -⟩ := writeReg_effect reg v s
    simp [hb]
  · simp

@[simp] theorem hostRead_noFault (off width : Nat) (s : State) : NoFault (hostRead off width s) := by
  unfold hostRead
  split <;> simp

@[simp] theorem submitWord_noFault (w : Word) (s : State) : NoFault (submitWord w s) := by
  obtain ⟨b, hb, -⟩ := submitWord_effect w s
  simp [hb]

@[simp] theorem commandLine_noFault (i : Instr) (c : CmdPoint) (g : CmdPoint → State → State)
    (k : Word → State → State) (s : State) : NoFault (commandLine i c g k s) := by
  cases c <;> simp [commandLine]

@[simp] theorem readbackStep_noFault (a : Addr) (off : Byte) (c : ReadbackPoint) (s : State) :
    NoFault (readbackStep a off c s) := by
  cases c <;> simp [readbackStep]

@[simp] theorem callStep_noFault (c : BusCall) (q : CallPoint) (s : State) :
    NoFault (callStep c q s) := by
  cases q <;> simp [callStep]

@[simp] theorem directiveStep_noFault (d : Directive) (s : State) : NoFault (directiveStep d s) := by
  cases d <;> simp [directiveStep]

@[simp] theorem frameByteStep_noFault (i n : Nat) (s : State) : NoFault (frameByteStep i n s) := by
  unfold frameByteStep
  split <;> simp

@[simp] theorem ctlStep_noFault (s : State) : NoFault (ctlStep s) := by
  unfold ctlStep
  cases s.host.ctl <;> simp

theorem hostStep_noFault (s : State) : NoFault (hostStep s) := by
  unfold hostStep
  split <;> simp

/-! ### TXC -/

/-- TXC faults only where PHASE names no primitive. -/
theorem txcStep_noFault {i : Instr} (s : State) (hc : s.blk.command = some i)
    (hprim : (nextPrim s.params i s.blk).isSome = true) : NoFault (txcStep s) := by
  obtain ⟨q, hq⟩ := Option.isSome_iff_exists.mp hprim
  have hpending : s.pending = some (i, q) := by simp [State.pending, hc, hq]
  simp only [txcStep, hpending, txcWith]
  split <;> simp

/-! ### The machine -/

theorem agentStep_noFault (a : Agent) (s : State) (hinv : s.Inv) : NoFault (agentStep a s) := by
  cases a with
  | host => exact hostStep_noFault s
  | txc =>
    cases hbusy : s.blk.busy with
    | false => simp [agentStep, hbusy]
    | true =>
      obtain ⟨i, hc, hprim⟩ := hinv.blk.sequenced hbusy
      simpa [agentStep, hbusy] using txcStep_noFault s hc hprim
  | tick => exact noFault_next _
  | reset => exact noFault_next _

/-- The agent that is chosen finds a state that differs only in the schedule. -/
theorem State.choose_inv (s : State) (h : s.Inv) : s.choose.2.Inv := by
  unfold State.choose
  split <;> exact ⟨h.blk, h.env⟩

/-- Settles O40: no agent's step faults, whichever is chosen. -/
theorem noStepFaults : Obligations.NoStepFaults := by
  unfold Obligations.NoStepFaults
  intro s f hinv
  exact agentStep_noFault s.choose.1 s.choose.2 (s.choose_inv hinv) f

end Sys2Proof.Machine
end

section
/-! A TXC command as a run of TXC steps: its acceptance, and what no step changes in the environment
(40_transactions.md R130, R132; 20_memory.md R74, R90). -/

namespace Sys2Proof.Machine

variable {i : Instr}

/-! ### Acceptance -/

/-- CMDREG holds the accepted command. -/
theorem Block.command_acceptTxc (b : Block) (hw : i.wellFormed = true) :
    (b.acceptTxc (encode i)).command = some i := by
  simp [Block.command, decodeWord_encode i hw, Except.toOption]

/-- An idle block accepts a well-formed TXC command. -/
theorem exec_txc {s : State} (htxc : isTxc i = true) (hw : i.wellFormed = true)
    (hbusy : s.blk.busy = false) :
    exec i s = .next (s.withBlk (Block.acceptTxc (encode i))) := by
  refine Eq.trans ?_ (s.accept_idle (Block.acceptTxc (encode i)) hbusy)
  cases i with
  | probe a => rfl
  | rdreg a off => rfl
  | rdmulti a off n => exact execRdmulti_legal a off n s hw
  | wrreg a off val => rfl
  | decode => cases htxc
  | scale => cases htxc
  | frame => cases htxc

/-- Settles O6: the accepting step is R132's, and the next primitive is the START of the command in
CMDREG. -/
theorem txcCommandIsAccepted : Obligations.TxcCommandIsAccepted := by
  unfold Obligations.TxcCommandIsAccepted
  intro i s htxc hw hbusy
  obtain ⟨a, ha⟩ := Option.isSome_iff_exists.mp htxc
  exact ⟨_, rfl, exec_txc htxc hw hbusy, a, ha, s.blk.command_acceptTxc hw, nextPrim_pStart rfl ha⟩

/-! ### Runs of TXC steps -/

theorem txcSteps_succ {s t : State} (h : agentStep .txc s = .next t) (k : Nat) :
    txcSteps (k + 1) s = txcSteps k t := by
  simp [txcSteps, h]

/-- A command that an idle block accepts is its TXC steps from the accepted state. -/
theorem runCommand_txc {s : State} (htxc : isTxc i = true) (hw : i.wellFormed = true)
    (hbusy : s.blk.busy = false) (k : Nat) :
    runCommand i k s = txcSteps k (s.withBlk (Block.acceptTxc (encode i))) := by
  simp [runCommand, exec_txc htxc hw hbusy]

/-! ### The environment along a run -/

/-- What no answer changes: which environment it is, its devices, their read-only registers, the
injections, and that the slave memory is in canonical form. -/
structure Env.Evolves (e e' : Env) : Prop where
  kind : e'.kind = e.kind
  dev : e'.dev = e.dev
  ro : e'.ro = e.ro
  inject : e'.inject = e.inject
  canonical : e.canonical → e'.canonical

theorem Env.Evolves.refl (e : Env) : e.Evolves e := ⟨rfl, rfl, rfl, rfl, id⟩

theorem Env.Evolves.trans {e e' e'' : Env} (h : e.Evolves e') (h' : e'.Evolves e'') :
    e.Evolves e'' :=
  ⟨h'.kind.trans h.kind, h'.dev.trans h.dev, h'.ro.trans h.ro, h'.inject.trans h.inject,
    h'.canonical ∘ h.canonical⟩

theorem Env.Evolves.wellBehaved {e e' : Env} (h : e.Evolves e') (he : e.wellBehaved) :
    e'.wellBehaved := by
  simpa [Env.wellBehaved, h.kind, h.inject] using he

theorem Env.Evolves.plainSlave {e e' : Env} (h : e.Evolves e') (he : e.plainSlave) :
    e'.plainSlave :=
  ⟨h.kind.trans he.1, h.inject.trans he.2⟩

theorem Env.address_evolves (e : Env) (a : Addr) (d : Dir) : e.Evolves (e.address a d).2 := by
  unfold Env.address
  split <;> exact ⟨rfl, rfl, rfl, rfl, id⟩

theorem Env.setPointer_evolves (e : Env) (a : Addr) (v : Byte) : e.Evolves (e.setPointer a v) :=
  ⟨rfl, rfl, rfl, rfl, e.canonical_setPointer a v⟩

theorem Env.storeReg_evolves (e : Env) (a : Addr) (off v : Byte) : e.Evolves (e.storeReg a off v) := by
  refine ⟨?_, ?_, ?_, ?_, e.canonical_storeReg a off v⟩ <;> unfold Env.storeReg <;> split <;> rfl

/-- The slave's own answers change only registers, pointers and the selection (20_memory.md R91). -/
theorem Env.reply_evolves (e : Env) (q : Prim) : e.Evolves (e.reply q).2 := by
  cases q with
  | start a d => exact e.address_evolves a d
  | restart a d => exact e.address_evolves a d
  | wbyte v =>
    unfold Env.reply
    cases e.sel with
    | writeFirst a => exact (e.setPointer_evolves a v).trans ⟨rfl, rfl, rfl, rfl, id⟩
    | writeData a => exact (e.storeReg_evolves a _ v).trans (Env.setPointer_evolves _ _ _)
    | none => exact .refl e
    | read a => exact .refl e
  | rbyte more =>
    unfold Env.reply
    cases e.sel with
    | read a => exact e.setPointer_evolves a _
    | none => exact .refl e
    | writeFirst a => exact .refl e
    | writeData a => exact .refl e
  | stop => exact ⟨rfl, rfl, rfl, rfl, id⟩

theorem answer_evolves (q : Prim) (n : Nat) (e : Env) : e.Evolves (answer q n e).2 := by
  unfold answer
  split
  · exact ⟨rfl, rfl, rfl, rfl, id⟩
  · split
    · unfold Env.injected
      split <;> exact ⟨rfl, rfl, rfl, rfl, id⟩
    · exact e.reply_evolves q

theorem agentStep_txc_evolves {s t : State} (h : agentStep .txc s = .next t) :
    s.env.Evolves t.env := by
  cases hbusy : s.blk.busy with
  | false =>
    rw [noTxcStepWhileIdle s hbusy] at h
    cases h
    exact .refl s.env
  | true =>
    have hstep : txcStep s = .next t := by simpa [agentStep, hbusy] using h
    obtain ⟨i, q, r, e, b, -, -, ha, -, rfl⟩ := txcStep_cases s t hstep
    have he := answer_evolves q s.trace.length s.env
    rwa [ha] at he

theorem txcSteps_evolves (k : Nat) {s t : State} (h : txcSteps k s = .next t) :
    s.env.Evolves t.env := by
  induction k generalizing s with
  | zero =>
    cases h
    exact .refl _
  | succ k ih =>
    simp only [txcSteps] at h
    split at h
    · exact (agentStep_txc_evolves ‹_›).trans (ih h)
    · cases h
    · cases h

/-- A command changes the environment only by its TXC steps. -/
theorem runCommand_evolves {s t : State} (htxc : isTxc i = true) (hw : i.wellFormed = true)
    (hbusy : s.blk.busy = false) (k : Nat) (h : runCommand i k s = .next t) :
    s.env.Evolves t.env :=
  txcSteps_evolves (s := s.withBlk (Block.acceptTxc (encode i))) k
    ((runCommand_txc htxc hw hbusy k).symm.trans h)

end Sys2Proof.Machine
end

section
/-! The bound on the TXC steps of a command (40_transactions.md R144). -/

namespace Sys2Proof.Machine

variable {p : Params} {i : Instr} {b b' : Block}

/-! ### The invariant while a command runs -/

/-- The invariant of the block but for FRAMELEN, of which the sequencer knows nothing: the acceptance of a
TXC command establishes it in any block. -/
def Block.SeqInv (p : Params) (b : Block) : Prop := Block.Inv p { b with framelen := 0 }

/-- While the block is busy PHASE names a primitive of the command in CMDREG. -/
theorem Block.SeqInv.nextPrim_isSome (h : b.SeqInv p) (hbusy : b.busy = true)
    (hc : b.command = some i) : (nextPrim p i b).isSome = true := by
  obtain ⟨j, hj, hprim⟩ := h.sequenced hbusy
  cases hc.symm.trans hj
  exact hprim

theorem Block.seqInv_acceptTxc (b : Block) (htxc : isTxc i = true) (hw : i.wellFormed = true) :
    (b.acceptTxc (encode i)).SeqInv p :=
  ((Block.atReset_inv p 0).acceptTxc htxc hw).with_data false b.modeSel b.rxbuf b.raw b.phys b.frame

/-- The effect of a response does not depend on FRAMELEN. -/
theorem TxcEffect.with_framelen (h : TxcEffect i b b') (n : BitVec 4) :
    TxcEffect i { b with framelen := n } { b' with framelen := n } := by
  cases h with
  | aborted c hph hcode => exact .aborted c hph hcode
  | started hph => cases i <;> exact .started hph
  | offsetSent hph => exact .offsetSent hph
  | valueSent hph => exact .valueSent hph
  | restarted hph => exact .restarted hph
  | lastByte v hph hlast => exact .lastByte v hph hlast
  | byte v hph hmore => exact .byte v hph hmore
  | finished c hph hcode => exact .finished c hph hcode

theorem TxcEffect.keeps_seqInv (h : TxcEffect i b b') (hinv : b.SeqInv p) (hbusy : b.busy = true)
    (hc : b.command = some i) (hprim : (nextPrim p i b).isSome = true) : b'.SeqInv p :=
  (h.with_framelen 0).keeps_inv hinv hbusy hc hprim

/-- A command has ended, with one of the three codes of a TXC command (40_transactions.md R138). -/
structure Block.Ended (b : Block) : Prop where
  busy : b.busy = false
  done : b.done = true
  phase : b.phase = .idle
  code : b.code ≠ .illegal

/-- The response of STOP ends the command; every other leaves it running. -/
theorem TxcEffect.busy_or_ended (h : TxcEffect i b b') (hbusy : b.busy = true)
    (hpcode : b.pcode ≠ .illegal) :
    (b'.busy = true ∧ b'.command = b.command) ∨ (b.phase = .pStop ∧ b'.Ended) := by
  cases h with
  | finished c hph hcode =>
    refine .inr ⟨hph, rfl, rfl, rfl, ?_⟩
    rw [Block.finish_code]
    rintro rfl
    rcases hcode with hcode | hcode
    · exact hpcode hcode.symm
    · cases hcode
  | started _ => cases i <;> exact .inl ⟨hbusy, rfl⟩
  | _ => exact .inl ⟨hbusy, rfl⟩

/-! ### The bound -/

/-- The most TXC steps that the command takes from here (40_transactions.md R144). -/
def stepsLeft (i : Instr) (b : Block) : Nat :=
  match b.phase with
  | .idle => 0
  | .pStart => stepBound i
  | .pOffset => stepBound i - 1
  | .pWdata => 2
  | .pRestart => readCount i + 2
  | .pRdata => readCount i - b.idx.toNat + 1
  | .pStop => 1

theorem Block.stepsLeft_acceptTxc (b : Block) (i : Instr) :
    stepsLeft i (b.acceptTxc (encode i)) = stepBound i := rfl

/-- IDX does not wrap while bytes are wanted. -/
theorem idx_succ_toNat (hw : i.wellFormed = true) (hlt : b.idx.toNat < readCount i) :
    (b.idx + 1).toNat = b.idx.toNat + 1 := by
  have hcount : readCount i ≤ 8 := readCount_le_rxDepth i hw
  rw [BitVec.toNat_add]
  change (b.idx.toNat + 1) % 16 = _
  omega

/-- The START, the offset byte, then two primitives for WRREG and two more than the bytes for a read. -/
theorem stepBound_of_offsetByte (ho : (offsetByte p i).isSome = true) :
    stepBound i = (if (writeValue i).isSome then 2 else readCount i + 2) + 2 := by
  cases i <;> simp_all [offsetByte, stepBound, writeValue, readCount]

/-- Every TXC command has a START and a STOP. -/
theorem two_le_stepBound (htxc : isTxc i = true) : 2 ≤ stepBound i := by
  cases i <;> simp_all [isTxc, busAddr, stepBound]

/-- Before the STOP more than one step is left. -/
theorem one_lt_stepsLeft (hprim : (nextPrim p i b).isSome = true) (hph : b.phase ≠ .pStop) :
    1 < stepsLeft i b := by
  have htxc := isTxc_of_nextPrim hprim
  unfold nextPrim at hprim
  unfold stepsLeft
  cases hphase : b.phase <;> simp only [hphase] at hprim ⊢
  case idle => cases hprim
  case pStart => exact two_le_stepBound htxc
  case pOffset =>
    have hbound := stepBound_of_offsetByte (p := p) (i := i) (by simpa using hprim)
    split at hbound <;> omega
  case pWdata => omega
  case pRestart => omega
  case pRdata =>
    split at hprim
    · omega
    · cases hprim
  case pStop => exact absurd hphase hph

theorem stepsLeft_pos (hprim : (nextPrim p i b).isSome = true) : 0 < stepsLeft i b := by
  by_cases hph : b.phase = .pStop
  · simp [stepsLeft, hph]
  · exact Nat.zero_lt_of_lt (one_lt_stepsLeft hprim hph)

/-- Every response brings the command nearer to its end. -/
theorem TxcEffect.stepsLeft_lt (h : TxcEffect i b b') (hw : i.wellFormed = true)
    (hprim : (nextPrim p i b).isSome = true) : stepsLeft i b' < stepsLeft i b := by
  cases h with
  | aborted c hph _ => exact one_lt_stepsLeft hprim hph
  | started hph =>
    have htxc := isTxc_of_nextPrim hprim
    cases i <;> simp_all [stepsLeft, Block.started, stepBound, isTxc, busAddr]
  | offsetSent hph =>
    have hbound := stepBound_of_offsetByte (p := p) (i := i) (by simpa [nextPrim, hph] using hprim)
    simp only [stepsLeft, hph]
    split at hbound <;> simp_all
  | valueSent hph => simp [stepsLeft, hph]
  | restarted hph =>
    simp only [stepsLeft, hph]
    omega
  | lastByte v hph hlast =>
    simp only [stepsLeft, hph]
    omega
  | byte v hph hmore =>
    have hlt : b.idx.toNat < readCount i := by
      by_contra hge
      simp [nextPrim, hph, hge] at hprim
    simp only [stepsLeft, Block.storeRx_phase, hph, idx_succ_toNat hw hlt]
    omega
  | finished c hph _ => simp [stepsLeft, hph]

/-- `k` TXC steps from `s` end its command in `t`, and none before. -/
structure EndsIn (k : Nat) (s t : State) : Prop where
  run : txcSteps k s = .next t
  ended : t.blk.Ended
  busyBefore : ∀ j u, j < k → txcSteps j s = .next u → u.blk.busy = true

theorem EndsIn.last {s t : State} (hbusy : s.blk.busy = true) (h : agentStep .txc s = .next t)
    (hend : t.blk.Ended) : EndsIn 1 s t where
  run := txcSteps_succ h 0
  ended := hend
  busyBefore j u hj hu := by
    obtain rfl := Nat.lt_one_iff.mp hj
    cases hu
    exact hbusy

theorem EndsIn.step {k : Nat} {s t u : State} (hbusy : s.blk.busy = true)
    (h : agentStep .txc s = .next t) (hend : EndsIn k t u) : EndsIn (k + 1) s u where
  run := (txcSteps_succ h k).trans hend.run
  ended := hend.ended
  busyBefore j v hj hv := by
    cases j with
    | zero =>
      cases hv
      exact hbusy
    | succ j =>
      rw [txcSteps_succ h] at hv
      exact hend.busyBefore j v (by omega) hv

/-- A busy block under the invariant, answered inside the response sets, takes its next TXC step, which
keeps the invariant and brings it nearer to its end, or is the last. -/
theorem agentStep_txc_nearer {s : State} (hinv : s.blk.SeqInv s.params) (hbusy : s.blk.busy = true)
    (hc : s.blk.command = some i) (hans : s.answersInSet) :
    ∃ t, agentStep .txc s = .next t ∧ t.params = s.params ∧ t.blk.SeqInv s.params ∧
      stepsLeft i t.blk < stepsLeft i s.blk ∧
      ((t.blk.busy = true ∧ t.blk.command = some i) ∨ (s.blk.phase = .pStop ∧ t.blk.Ended)) := by
  have hprim := hinv.nextPrim_isSome hbusy hc
  obtain ⟨q, hq⟩ := Option.isSome_iff_exists.mp hprim
  obtain ⟨r, e, b, -, heff, hstep⟩ := agentStep_txc_progress hbusy hc hq hans
  refine ⟨_, hstep, rfl, heff.keeps_seqInv hinv hbusy hc hprim,
    heff.stepsLeft_lt (s.blk.command_wellFormed i hc) hprim, ?_⟩
  rw [← hc]
  exact heff.busy_or_ended hbusy hinv.pcodeBus

/-- A busy block under the invariant ends its command in at most the steps left, when it is answered
inside the response sets till then. -/
theorem exists_endsIn (n : Nat) {s : State} (hinv : s.blk.SeqInv s.params)
    (hbusy : s.blk.busy = true) (hc : s.blk.command = some i) (hleft : stepsLeft i s.blk ≤ n)
    (hans : ∀ j u, j < n → txcSteps j s = .next u → u.answersInSet) :
    ∃ k t, 1 ≤ k ∧ k ≤ n ∧ EndsIn k s t := by
  induction n generalizing s with
  | zero =>
    have hpos := stepsLeft_pos (hinv.nextPrim_isSome hbusy hc)
    omega
  | succ n ih =>
    obtain ⟨t, hstep, hparams, htinv, hlt, hnext⟩ :=
      agentStep_txc_nearer hinv hbusy hc (hans 0 s n.succ_pos rfl)
    rcases hnext with ⟨htbusy, htc⟩ | ⟨-, hend⟩
    · obtain ⟨k, u, hk, hkn, hends⟩ := ih (by rwa [hparams]) htbusy htc (by omega) fun j u hj hu =>
        hans (j + 1) u (by omega) ((txcSteps_succ hstep j).trans hu)
      exact ⟨k + 1, u, by omega, by omega, hends.step hbusy hstep⟩
    · exact ⟨1, t, le_rfl, by omega, .last hbusy hstep hend⟩

/-- A well-formed command takes at most 12 TXC steps. -/
theorem stepBound_le (hw : i.wellFormed = true) : stepBound i ≤ 12 := by
  cases i with
  | rdmulti a off n => exact Nat.add_le_add_right (of_decide_eq_true hw).2 4
  | _ => simp [stepBound]

/-- An environment that can only answer inside the response sets does so while a command runs. -/
theorem State.answersDuring_of_wellBehaved {s : State} (htxc : isTxc i = true)
    (hw : i.wellFormed = true) (hbusy : s.blk.busy = false) (h : s.env.wellBehaved) :
    s.answersDuring i := by
  intro j u _ hu
  exact u.answersInSet_of_wellBehaved ((runCommand_evolves htxc hw hbusy j hu).wellBehaved h)

/-- Settles O31: from its acceptance on every TXC step brings the command nearer to its end. -/
theorem commandEndsWithinItsBound : Obligations.CommandEndsWithinItsBound := by
  unfold Obligations.CommandEndsWithinItsBound
  intro i s htxc hw hbusy henv
  have hduring : s.answersDuring i :=
    henv.elim (State.answersDuring_of_wellBehaved htxc hw hbusy) id
  have hrun := runCommand_txc htxc hw hbusy
  simp only [State.answersDuring, hrun] at hduring ⊢
  have hinv : (s.withBlk (Block.acceptTxc (encode i))).blk.SeqInv s.params :=
    s.blk.seqInv_acceptTxc htxc hw
  have hc : (s.withBlk (Block.acceptTxc (encode i))).blk.command = some i :=
    s.blk.command_acceptTxc hw
  have hans := hduring 0 _ (Nat.zero_lt_of_lt (two_le_stepBound htxc)) rfl
  refine ⟨?_, stepBound_le hw, ?_⟩
  · obtain ⟨k, t, hk, hbound, hends⟩ :=
      exists_endsIn (stepBound i) hinv rfl hc (s.blk.stepsLeft_acceptTxc i).le hduring
    exact ⟨k, t, hk, hbound, hends.run, hends.ended.busy, hends.ended.done, hends.ended.phase,
      hends.ended.code, hends.busyBefore⟩
  · intro _ _
    obtain ⟨t, hstep, -, -, -, hnext⟩ := agentStep_txc_nearer hinv rfl hc hans
    rcases hnext with ⟨htbusy, -⟩ | ⟨hstop, -⟩
    · exact ⟨t, txcSteps_succ hstep 0, htbusy⟩
    · cases hstop

end Sys2Proof.Machine
end

section
/-! Whole commands at the reference slave with nothing injected (20_memory.md R90, R91; 40_transactions.md
R140 to R143, R148, R149). -/

namespace Sys2Proof.Machine

variable {i : Instr} {s : State} {a : Addr} {m : Byte}

/-! ### The slave's answers -/

/-- The slave at `a` once it was addressed and sent the offset `m` (20_memory.md R91). -/
def Env.offsetSent (e : Env) (a : Addr) (m : Byte) : Env :=
  { e.setPointer a m with sel := .writeData a }

theorem Env.offsetSent_evolves (e : Env) (a : Addr) (m : Byte) : e.Evolves (e.offsetSent a m) :=
  ⟨rfl, rfl, rfl, rfl, e.canonical_setPointer a m⟩

theorem Env.pointer_offsetSent {e : Env} (h : e.canonical) (a : Addr) (m : Byte) :
    (e.offsetSent a m).pointer a = m :=
  e.pointer_setPointer h a m

theorem Env.reply_start_absent {e : Env} {d : Dir} (h : a ∉ e.dev) :
    e.reply (.start a d) = (.nack, { e with sel := .none }) := by
  simp [Env.reply, Env.address, h]

theorem Env.reply_start {e : Env} (h : a ∈ e.dev) :
    e.reply (.start a .w) = (.ack, { e with sel := .writeFirst a }) := by
  simp [Env.reply, Env.address, h]

theorem Env.reply_restart {e : Env} (h : a ∈ e.dev) :
    e.reply (.restart a .r) = (.ack, { e with sel := .read a }) := by
  simp [Env.reply, Env.address, h]

theorem Env.reply_wbyte_offset {e : Env} (v : Byte) (h : e.sel = .writeFirst a) :
    e.reply (.wbyte v) = (.ack, e.offsetSent a v) := by
  simp [Env.reply, Env.offsetSent, h]

theorem Env.reply_wbyte_value {e : Env} (v : Byte) (h : e.canonical) :
    (e.offsetSent a m).reply (.wbyte v) =
      (.ack, ((e.offsetSent a m).storeReg a m v).setPointer a (m + 1)) := by
  have hsel : (e.offsetSent a m).sel = .writeData a := rfl
  simp [Env.reply, hsel, Env.pointer_offsetSent h]

theorem Env.reply_rbyte {e : Env} (more : Bool) (h : e.sel = .read a) :
    e.reply (.rbyte more) =
      (.data (e.slaveReg a (e.pointer a)), e.setPointer a (e.pointer a + 1)) := by
  simp [Env.reply, h]

/-- `regs_a[off]` after a store (20_memory.md R91). -/
theorem Env.slaveReg_storeReg (e : Env) (h : e.canonical) (a : Addr) (off v : Byte) (a' : Addr)
    (off' : Byte) :
    (e.storeReg a off v).slaveReg a' off' =
      if (a', off') = (a, off) ∧ (a, off) ∉ e.ro then v else e.slaveReg a' off' := by
  by_cases hro : (a, off) ∈ e.ro
  · simp [Env.storeReg, hro]
  · have hkey : slaveKey a off = slaveKey a' off' ↔ (a', off') = (a, off) := by
      refine ⟨fun hk => ?_, fun hk => by cases hk; rfl⟩
      obtain ⟨rfl, rfl⟩ := slaveKey_inj a a' off off' hk
      rfl
    simp [Env.storeReg, hro, Env.slaveReg, Memory.read_write _ _ _ h.1, hkey]

/-! ### TXC steps at the slave -/

/-- The step of a busy TXC at the slave, from its parts, at the head of a run. -/
theorem txcSteps_slave {q : Prim} {r : Response} {e : Env} {b : Block} (k : Nat)
    (hslave : s.env.plainSlave) (hbusy : s.blk.busy = true) (hc : s.blk.command = some i)
    (hq : nextPrim s.params i s.blk = some q) (hreply : s.env.reply q = (r, e))
    (hb : s.blk.respond i r = some b) :
    txcSteps (k + 1) s =
      txcSteps k { s with blk := b, env := e, trace := s.trace ++ [(q, r)] } :=
  txcSteps_succ (agentStep_txc_eq s i q r e b hbusy hc hq
    ((answer_plainSlave q _ _ hslave).trans hreply) hb) k

/-- The slave answers STOP with DONE, so the code is that of the first failure, or 0. -/
theorem txcSteps_slave_stop (hslave : s.env.plainSlave) (hbusy : s.blk.busy = true)
    (hc : s.blk.command = some i) (htxc : isTxc i = true) (hph : s.blk.phase = .pStop) :
    txcSteps 1 s = .next { s with
      blk := s.blk.finish s.blk.pcode (readCount i)
      env := { s.env with sel := .none }
      trace := s.trace ++ [(.stop, .done)] } :=
  txcSteps_slave 0 hslave hbusy hc (nextPrim_pStop hph htxc) rfl (Block.respond_pStop hph)

/-- Settles O32: the slave acknowledges START exactly at its devices, and the STOP ends the command. -/
theorem probeFindsExactlyTheDevices : Obligations.ProbeFindsExactlyTheDevices := by
  unfold Obligations.ProbeFindsExactlyTheDevices
  intro a s hbusy hslave
  rw [runCommand_txc rfl rfl hbusy]
  have hc := s.blk.command_acceptTxc (i := .probe a) rfl
  by_cases hdev : a ∈ s.env.dev
  · refine ⟨_, Eq.trans
      (txcSteps_slave 1 hslave rfl hc (nextPrim_pStart rfl rfl) (Env.reply_start hdev) rfl)
      (txcSteps_slave_stop hslave rfl hc rfl rfl), ?_⟩
    simp [hdev, Block.started, readCount]
  · refine ⟨_, Eq.trans
      (txcSteps_slave 1 hslave rfl hc (nextPrim_pStart rfl rfl) (Env.reply_start_absent hdev) rfl)
      (txcSteps_slave_stop hslave rfl hc rfl rfl), ?_⟩
    simp [hdev]

/-- The acknowledged START leads a command with an offset to it. -/
theorem Block.started_of_offsetByte {p : Params} (b : Block) (ho : offsetByte p i = some m) :
    b.started i = { b with phase := .pOffset } := by
  cases i with
  | probe a => cases ho
  | rdreg a off => rfl
  | rdmulti a off n => rfl
  | wrreg a off val => rfl
  | decode => cases ho
  | scale => cases ho
  | frame => cases ho

/-- At a present slave START and the offset byte are acknowledged: the pointer is the offset sent, and the
command goes on with its value or its RESTART. -/
theorem txcSteps_addressed (k : Nat) (hslave : s.env.plainSlave) (hdev : a ∈ s.env.dev)
    (hw : i.wellFormed = true) (ha : busAddr i = some a) (ho : offsetByte s.params i = some m) :
    txcSteps (k + 2) (s.withBlk (Block.acceptTxc (encode i))) = txcSteps k { s with
      blk := { s.blk.acceptTxc (encode i) with
        phase := if (writeValue i).isSome then .pWdata else .pRestart }
      env := s.env.offsetSent a m
      trace := s.trace ++ [(.start a .w, .ack), (.wbyte m, .ack)] } := by
  have hc := s.blk.command_acceptTxc hw
  refine Eq.trans (txcSteps_slave (k + 1) hslave rfl hc (nextPrim_pStart rfl ha) (Env.reply_start hdev)
    (congrArg some (Block.started_of_offsetByte _ ho))) ?_
  refine Eq.trans (txcSteps_slave k hslave rfl hc (nextPrim_pOffset rfl ho)
    (Env.reply_wbyte_offset m rfl) rfl) ?_
  simp [Env.offsetSent, Env.setPointer]

/-! ### WRREG -/

/-- Settles O35: the value goes to the register at the pointer, which is the offset sent before it. -/
theorem wrregStoresTheValue : Obligations.WrregStoresTheValue := by
  unfold Obligations.WrregStoresTheValue
  intro a off val s hbusy hslave hdev hcanon
  have hc := s.blk.command_acceptTxc (i := .wrreg a off val) rfl
  have hsent := s.env.offsetSent_evolves a off
  have hslave' := (hsent.trans (Env.storeReg_evolves _ a off val)).plainSlave hslave
  have hreg := (s.env.offsetSent a off).slaveReg_storeReg (hsent.canonical hcanon) a off val
  refine ⟨_, Eq.trans (runCommand_txc rfl rfl hbusy 4) <|
    Eq.trans (txcSteps_addressed 2 hslave hdev rfl rfl rfl) <|
    Eq.trans (txcSteps_slave 1 hslave rfl hc (nextPrim_pWdata rfl rfl)
      (Env.reply_wbyte_value val hcanon) rfl) <|
    txcSteps_slave_stop hslave' rfl hc rfl rfl,
    rfl, rfl, rfl, rfl, rfl, fun hro => ?_, fun hro => ?_, fun a' off' hne => ?_, ?_⟩
  · exact (hreg a off).trans (if_pos ⟨rfl, hro⟩)
  · exact (hreg a off).trans (if_neg fun h => h.2 hro)
  · exact (hreg a' off').trans (if_neg fun h => hne h.1)
  · simp

/-! ### RDREG and RDMULTI -/

/-- The RBYTE of byte `k` of `n` from the register pointer `m` on, with what the slave answers. -/
def readEntry (e : Env) (a : Addr) (m : Byte) (n k : Nat) : TraceEntry :=
  (.rbyte (decide (k + 1 ≠ n)), .data (e.slaveReg a (m + BitVec.ofNat 8 k)))

/-- TXC is at the next byte of the read `i`, and so is the pointer of the slave, from `m` on. -/
structure State.ReadsFrom (s : State) (i : Instr) (a : Addr) (m : Byte) : Prop where
  busy : s.blk.busy = true
  command : s.blk.command = some i
  phase : s.blk.phase = .pRdata
  slave : s.env.plainSlave
  canonical : s.env.canonical
  sel : s.env.sel = .read a
  pointer : s.env.pointer a = m + BitVec.ofNat 8 s.blk.idx.toNat

/-- One byte of a read. -/
theorem State.ReadsFrom.txcSteps_succ {b : Block} (h : s.ReadsFrom i a m) (k : Nat)
    (hlt : s.blk.idx.toNat < readCount i)
    (hb : phaseRdata i (.data (s.env.slaveReg a (m + BitVec.ofNat 8 s.blk.idx.toNat))) s.blk =
      some b) :
    txcSteps (k + 1) s = txcSteps k { s with
      blk := b
      env := s.env.setPointer a (m + BitVec.ofNat 8 (s.blk.idx.toNat + 1))
      trace := s.trace ++ [readEntry s.env a m (readCount i) s.blk.idx.toNat] } := by
  have hpointer : m + BitVec.ofNat 8 s.blk.idx.toNat + 1 =
      m + BitVec.ofNat 8 (s.blk.idx.toNat + 1) := by
    simp [BitVec.ofNat_add, BitVec.add_assoc]
  have hreply := Env.reply_rbyte (decide (s.blk.idx.toNat + 1 ≠ readCount i)) h.sel
  rw [h.pointer, hpointer] at hreply
  exact txcSteps_slave k h.slave h.busy h.command (nextPrim_pRdata h.phase hlt) hreply
    ((Block.respond_pRdata h.phase).trans hb)

/-- The state after a byte of a read that is not the last. -/
def State.byteRead (s : State) (i : Instr) (a : Addr) (m : Byte) : State :=
  { s with
    blk := { s.blk.storeRx (s.env.slaveReg a (m + BitVec.ofNat 8 s.blk.idx.toNat)) with
      idx := s.blk.idx + 1 }
    env := s.env.setPointer a (m + BitVec.ofNat 8 (s.blk.idx.toNat + 1))
    trace := s.trace ++ [readEntry s.env a m (readCount i) s.blk.idx.toNat] }

theorem State.ReadsFrom.byteRead_idx (h : s.ReadsFrom i a m) (hlt : s.blk.idx.toNat < readCount i) :
    (s.byteRead i a m).blk.idx.toNat = s.blk.idx.toNat + 1 :=
  idx_succ_toNat (s.blk.command_wellFormed i h.command) hlt

/-- After it TXC and the pointer of the slave are at the next byte. -/
theorem State.ReadsFrom.byteRead (h : s.ReadsFrom i a m) (hlt : s.blk.idx.toNat < readCount i) :
    (s.byteRead i a m).ReadsFrom i a m where
  busy := h.busy
  command := h.command
  phase := h.phase
  slave := h.slave
  canonical := s.env.canonical_setPointer a _ h.canonical
  sel := h.sel
  pointer := by
    rw [h.byteRead_idx hlt]
    exact s.env.pointer_setPointer h.canonical a _

/-- The remaining bytes of a read: they come from consecutive registers, and only their places in RXBUF
are written. -/
theorem State.ReadsFrom.txcSteps_bytes (j : Nat) (h : s.ReadsFrom i a m)
    (hj : s.blk.idx.toNat + j + 1 = readCount i) :
    ∃ rx idx ptrs, txcSteps (j + 1) s = .next { s with
        blk := { s.blk with rxbuf := rx, idx := idx, phase := .pStop }
        env := { s.env with ptrs := ptrs }
        trace := s.trace ++
          (List.range' s.blk.idx.toNat (j + 1)).map (readEntry s.env a m (readCount i)) } ∧
      (∀ k : Fin 8, rx[k] =
        if s.blk.idx.toNat ≤ k.val ∧ k.val < readCount i then
          s.env.slaveReg a (m + BitVec.ofNat 8 k.val)
        else s.blk.rxbuf[k]) ∧
      Memory.read ptrs a.toNat = m + BitVec.ofNat 8 (readCount i) := by
  induction j generalizing s with
  | zero =>
    refine ⟨_, s.blk.idx, _, h.txcSteps_succ 0 (by omega) (phaseRdata_last hj), fun k => ?_, ?_⟩
    · rw [Block.storeRx_getElem]
      by_cases hk : k.val = s.blk.idx.toNat
      · simp [hk, ← hj]
      · rw [if_neg hk, if_neg (by omega)]
    · rw [← hj]
      exact Env.pointer_setPointer s.env h.canonical a _
  | succ j ih =>
    have hlt : s.blk.idx.toNat < readCount i := by omega
    have hidx := h.byteRead_idx hlt
    have hstep : _ = txcSteps (j + 1) (s.byteRead i a m) :=
      h.txcSteps_succ (j + 1) hlt (phaseRdata_more (by omega))
    obtain ⟨rx, idx, ptrs, hrun, hrx, hptr⟩ := ih (h.byteRead hlt) (by omega)
    simp only [hidx] at hrun hrx
    refine ⟨rx, idx, ptrs, hstep.trans (hrun.trans ?_), fun k => (hrx k).trans ?_, hptr⟩
    · simp [List.range'_succ, State.byteRead, readEntry, Env.slaveReg, Env.setPointer]
    · change (if _ then s.env.slaveReg a _ else (s.blk.storeRx _).rxbuf[k]) = _
      rw [Block.storeRx_getElem]
      by_cases hk : k.val = s.blk.idx.toNat
      · rw [if_neg (by omega), if_pos hk, if_pos (by omega), hk]
      · rw [if_neg hk]
        exact if_congr (by omega) rfl rfl

/-- A read at a present slave: after START, the offset byte and RESTART it is at its first byte. -/
theorem txcSteps_read_start (hslave : s.env.plainSlave) (hdev : a ∈ s.env.dev)
    (hcanon : s.env.canonical) (hw : i.wellFormed = true) (ha : busAddr i = some a)
    (ho : offsetByte s.params i = some m) (hn : readCount i ≠ 0) :
    ∃ u : State, (∀ k, txcSteps (k + 3) (s.withBlk (Block.acceptTxc (encode i))) = txcSteps k u) ∧
      u.ReadsFrom i a m ∧ u.blk = { s.blk.acceptTxc (encode i) with phase := .pRdata } ∧
      u.env.regs = s.env.regs ∧
      u.trace = s.trace ++ [(.start a .w, .ack), (.wbyte m, .ack), (.restart a .r, .ack)] := by
  have hc := s.blk.command_acceptTxc hw
  have hvalue : writeValue i = none := by cases i <;> simp_all [readCount, writeValue]
  refine ⟨_, fun k => Eq.trans (txcSteps_addressed (k + 1) hslave hdev hw ha ho)
    (txcSteps_slave k hslave rfl hc (nextPrim_pRestart (by simp [hvalue]) hn ha)
      (Env.reply_restart hdev) (Block.respond_pRestart (by simp [hvalue]))), ?_, rfl, rfl, ?_⟩
  · exact {
      busy := rfl
      command := hc
      phase := rfl
      slave := hslave
      canonical := s.env.canonical_setPointer a m hcanon
      sel := rfl
      pointer := (s.env.pointer_setPointer hcanon a m).trans (by simp) }
  · simp

/-- A read at a present slave: its bytes come from consecutive registers from the offset sent on, in one
transaction. -/
theorem runCommand_read (hbusy : s.blk.busy = false) (hslave : s.env.plainSlave)
    (hdev : a ∈ s.env.dev) (hcanon : s.env.canonical) (hw : i.wellFormed = true)
    (ha : busAddr i = some a) (ho : offsetByte s.params i = some m) (hn : readCount i ≠ 0) :
    ∃ t, runCommand i (readCount i + 4) s = .next t ∧ t.blk.busy = false ∧ t.blk.done = true ∧
      t.blk.code = .ok ∧ t.blk.rxcnt = BitVec.ofNat 4 (readCount i) ∧
      (∀ k : Fin 8, t.blk.rxbuf[k] =
        if k.val < readCount i then s.env.slaveReg a (m + BitVec.ofNat 8 k.val)
        else s.blk.rxbuf[k]) ∧
      t.env.regs = s.env.regs ∧ t.env.pointer a = m + BitVec.ofNat 8 (readCount i) ∧
      t.trace = s.trace ++ [(.start a .w, .ack), (.wbyte m, .ack), (.restart a .r, .ack)] ++
        (List.range (readCount i)).map (readEntry s.env a m (readCount i)) ++ [(.stop, .done)] := by
  obtain ⟨n, hcount⟩ := Nat.exists_eq_add_one_of_ne_zero hn
  have htxc : isTxc i = true := by simp [isTxc, ha]
  obtain ⟨u, hstart, hreads, hblk, hregs, htrace⟩ :=
    txcSteps_read_start hslave hdev hcanon hw ha ho hn
  have hidx : u.blk.idx.toNat = 0 := by simp [hblk]
  obtain ⟨rx, idx, ptrs, hbytes, hrx, hptr⟩ := hreads.txcSteps_bytes n (by omega)
  have hrun : runCommand i (readCount i + 4) s = txcSteps (n + 1 + 1) u := by
    rw [runCommand_txc htxc hw hbusy, hcount]
    exact hstart (n + 2)
  refine ⟨_, hrun.trans ((txcSteps_add (n + 1) 1 u _ hbytes).trans
    (txcSteps_slave_stop hreads.slave hreads.busy hreads.command htxc rfl)), rfl, rfl, ?_, ?_, ?_, hregs,
      hptr, ?_⟩
  · simp [hblk]
  · simp [hblk]
  · intro k
    refine (hrx k).trans ?_
    simp [hblk, Env.slaveReg, hregs]
  · simp [hidx, htrace, hcount, List.range_eq_range', readEntry, Env.slaveReg, hregs]

/-- Settles O33: the read of one byte, which is the last. -/
theorem rdregReadsTheSlaveRegister : Obligations.RdregReadsTheSlaveRegister := by
  unfold Obligations.RdregReadsTheSlaveRegister
  intro a off s hbusy hslave hdev hcanon
  obtain ⟨t, hrun, hidle, hdone, hcode, hcnt, hrx, hregs, hptr, htrace⟩ :=
    runCommand_read (i := .rdreg a off) hbusy hslave hdev hcanon rfl rfl rfl Nat.one_ne_zero
  refine ⟨t, hrun, hidle, hdone, hcode, hcnt, ?_, fun k hk => ?_, hregs, hptr, ?_⟩
  · simpa [readCount] using hrx 0
  · have hk0 : ¬ k.val < 1 := by omega
    simpa [readCount, hk0] using hrx k
  · simpa [readCount, readEntry] using htrace

/-- Settles O34: the read of COUNT bytes, at most 8, from the offset under `AUTOINC_MASK`. -/
theorem rdmultiReadsConsecutiveRegisters : Obligations.RdmultiReadsConsecutiveRegisters := by
  unfold Obligations.RdmultiReadsConsecutiveRegisters
  intro a off count m s hrange hbusy hslave hdev hcanon hm
  have hcount : 1 ≤ count.toNat ∧ count.toNat ≤ 8 := of_decide_eq_true hrange
  obtain ⟨t, hrun, hidle, hdone, hcode, hcnt, hrx, hregs, -, htrace⟩ :=
    runCommand_read (i := .rdmulti a off count) (m := m) hbusy hslave hdev hcanon hrange rfl
      (congrArg some hm.symm) (Nat.one_le_iff_ne_zero.mp hcount.1)
  refine ⟨t, hrun, hidle, hdone, hcode, ?_, hrx, hregs, htrace⟩
  rw [hcnt, BitVec.toNat_ofNat]
  exact Nat.mod_eq_of_lt (by simp only [readCount]; omega)

/-! ### The round trip -/

/-- The block is idle and the slave at `a` is present. -/
structure State.SlaveReady (s : State) (a : Addr) : Prop where
  idle : s.blk.busy = false
  slave : s.env.plainSlave
  present : a ∈ s.env.dev
  canonical : s.env.canonical

/-- It is so again after a command. -/
theorem State.SlaveReady.after {t : State} {k : Nat} (h : s.SlaveReady a) (htxc : isTxc i = true)
    (hw : i.wellFormed = true) (hrun : runCommand i k s = .next t) (hidle : t.blk.busy = false) :
    t.SlaveReady a ∧ t.env.ro = s.env.ro := by
  have henv := runCommand_evolves htxc hw h.idle k hrun
  exact ⟨⟨hidle, henv.plainSlave h.slave, henv.dev ▸ h.present, henv.canonical h.canonical⟩, henv.ro⟩

/-- RDREG reads what the WRREG before it stored. -/
theorem State.SlaveReady.write_then_read {off : Byte} (h : s.SlaveReady a)
    (hro : (a, off) ∉ s.env.ro) (v : Byte) :
    ∃ t u, runCommand (.wrreg a off v) 4 s = .next t ∧ runCommand (.rdreg a off) 5 t = .next u ∧
      t.blk.done = true ∧ u.blk.done = true ∧ t.blk.code = .ok ∧ u.blk.code = .ok ∧
      u.blk.rxbuf[0] = v := by
  obtain ⟨t, hwrite, hidle, hdone, hcode, -, -, hstored, -⟩ :=
    wrregStoresTheValue a off v s h.idle h.slave h.present h.canonical
  obtain ⟨ht, -⟩ := h.after rfl rfl hwrite hidle
  obtain ⟨u, hread, -, hdone', hcode', -, hrx, -⟩ :=
    rdregReadsTheSlaveRegister a off t ht.idle ht.slave ht.present ht.canonical
  exact ⟨t, u, hwrite, hread, hdone, hdone', hcode, hcode', hrx.trans (hstored hro)⟩

/-- Settles O36: both forms are a WRREG and the RDREG after it, the first of the byte that an RDREG read
before. -/
theorem writeThenReadBackRoundTrip : Obligations.WriteThenReadBackRoundTrip := by
  unfold Obligations.WriteThenReadBackRoundTrip
  intro a off v s hbusy hslave hdev hro hcanon
  have hs : s.SlaveReady a := ⟨hbusy, hslave, hdev, hcanon⟩
  constructor
  · obtain ⟨t1, hread, hidle, hdone1, hcode1, -⟩ :=
      rdregReadsTheSlaveRegister a off s hbusy hslave hdev hcanon
    obtain ⟨ht1, hro1⟩ := hs.after rfl rfl hread hidle
    obtain ⟨t2, t3, hwrite, hreread, hdone2, hdone3, hcode2, hcode3, hrx⟩ :=
      ht1.write_then_read (hro1 ▸ hro) t1.blk.rxbuf[0]
    exact ⟨t1, t2, t3, hread, hwrite, hreread, hdone1, hdone2, hdone3, hcode1, hcode2, hcode3, hrx⟩
  · obtain ⟨t1, t2, hwrite, hread, -, -, -, -, hrx⟩ := hs.write_then_read hro v
    exact ⟨t1, t2, hwrite, hread, hrx⟩

end Sys2Proof.Machine
end

section
/-! The arithmetic of the decoder unit: the shift of DECODE, the two divisions of SCALE, their range and
their accuracy (00_scope.md R12, R13; 41_decoder.md R174 to R178). -/

namespace Sys2Proof.Machine

/-! ### The shift -/

/-- `asr_16` is the arithmetic shift of the word. -/
theorem asr16_eq_sshiftRight (v : Half) (k : Nat) : asr16 v k = v.sshiftRight k := by
  rw [asr16, Int.fdiv_eq_ediv_of_nonneg _ (by positivity), BitVec.sshiftRight_eq,
    Int.shiftRight_eq_div_pow]
  rfl

/-- The floor fits in 16 bits, so narrowing it loses nothing. -/
@[simp] theorem asr16_toInt (v : Half) (k : Nat) : (asr16 v k).toInt = v.toInt / 2 ^ k := by
  rw [asr16_eq_sshiftRight, BitVec.toInt_sshiftRight, Int.shiftRight_eq_div_pow]
  rfl

theorem asr16_toInt_range (v : Half) {k : Nat} (hk : k ≤ 15) :
    -(2 : Int) ^ (15 - k) ≤ (asr16 v k).toInt ∧ (asr16 v k).toInt ≤ 2 ^ (15 - k) - 1 := by
  have hpos : (0 : Int) < 2 ^ k := by positivity
  have hsplit : (2 : Int) ^ (15 - k) * 2 ^ k = 2 ^ 15 := pow_sub_mul_pow 2 hk
  rw [asr16_toInt]
  constructor
  · rw [Int.le_ediv_iff_mul_le hpos, neg_mul, hsplit]
    exact v.le_toInt
  · rw [Int.le_sub_one_iff, Int.ediv_lt_iff_lt_mul hpos, hsplit]
    exact v.toInt_lt

/-- The places that the shift frees hold the sign. -/
theorem asr16_getLsbD (v : Half) {k j : Nat} (hfree : 16 - k ≤ j) (hj : j < 16) :
    (asr16 v k).getLsbD j = (asr16 v k).msb := by
  have hout : ¬ k + j < 16 := by omega
  rw [asr16_eq_sshiftRight, BitVec.getLsbD_sshiftRight, BitVec.msb_sshiftRight]
  simp [hout, hj]

/-! ### The divisions -/

/-- `tdiv` is the truncating division of the library. -/
theorem tdiv_eq (n d : Int) : tdiv n d = n.tdiv d := by
  obtain hneg | rfl | hpos := Int.lt_trichotomy n 0
  · have habs : (n.natAbs : Int) = -n := by omega
    rw [tdiv, Int.sign_eq_neg_one_of_neg hneg, habs,
      ← Int.tdiv_eq_ediv_of_nonneg (by omega : 0 ≤ -n), Int.neg_tdiv]
    omega
  · simp [tdiv]
  · have habs : (n.natAbs : Int) = n := by omega
    rw [tdiv, Int.sign_eq_one_of_pos hpos, habs, one_mul, Int.tdiv_eq_ediv_of_nonneg hpos.le]

theorem ndiv_zero (d : Int) : ndiv 0 d = 0 := by
  simp [ndiv]

theorem ndiv_of_pos {n : Int} (d : Int) (h : 0 < n) : ndiv n d = (2 * n + d) / (2 * d) := by
  have habs : (n.natAbs : Int) = n := by omega
  rw [ndiv, Int.sign_eq_one_of_pos h, habs, one_mul]

theorem ndiv_neg (n d : Int) : ndiv (-n) d = -ndiv n d := by
  simp [ndiv]

/-- Both divisions are odd functions of the dividend. -/
theorem quantDiv_neg (q : Quant) (n d : Int) : quantDiv q (-n) d = -quantDiv q n d := by
  cases q with
  | trunc => simp only [quantDiv, tdiv_eq, Int.neg_tdiv]
  | nearest => exact ndiv_neg n d

/-- Truncation: the quotient lies between 0 and the exact value, less than 1 from it. -/
theorem tdiv_thousand (n : Int) :
    (1000 * tdiv n 1000 - n).natAbs < 1000 ∧
    (0 ≤ n → 0 ≤ tdiv n 1000 ∧ 1000 * tdiv n 1000 ≤ n) ∧
    (n ≤ 0 → tdiv n 1000 ≤ 0 ∧ n ≤ 1000 * tdiv n 1000) := by
  rw [tdiv_eq]
  obtain hpos | hneg := le_total 0 n
  · rw [Int.tdiv_eq_ediv_of_nonneg hpos]
    omega
  · have hflip := Int.neg_tdiv n 1000
    rw [Int.tdiv_eq_ediv_of_nonneg (by omega)] at hflip
    omega

/-- Rounding: the magnitude of the quotient is the magnitude of the dividend divided by 1000, plus one
half, rounded down, and the quotient has the dividend's sign. -/
theorem ndiv_thousand (n : Int) :
    (ndiv n 1000).natAbs = (2 * n.natAbs + 1000) / 2000 ∧
    (0 ≤ n → 0 ≤ ndiv n 1000) ∧ (n ≤ 0 → ndiv n 1000 ≤ 0) := by
  obtain hneg | rfl | hpos := Int.lt_trichotomy n 0
  · have hflip := ndiv_neg n 1000
    rw [ndiv_of_pos 1000 (by omega : 0 < -n)] at hflip
    omega
  · simp [ndiv_zero]
  · rw [ndiv_of_pos 1000 hpos]
    omega

theorem quantDiv_thousand_natAbs_le (q : Quant) (n : Int) :
    (quantDiv q n 1000).natAbs ≤ (2 * n.natAbs + 1000) / 2000 := by
  cases q with
  | trunc =>
    obtain ⟨-, hpos, hneg⟩ := tdiv_thousand n
    simp only [quantDiv]
    omega
  | nearest => exact (ndiv_thousand n).1.le

/-! ### The scaled value -/

theorem scaleValue_neg (q : Quant) (g : Nat) (u : AccUnit) (s r : Int) :
    scaleValue q g u s (-r) = -scaleValue q g u s r := by
  cases u with
  | mg => exact neg_mul r s
  | ms2 => simp only [scaleValue, neg_mul, quantDiv_neg]

theorem natAbs_mul_sensMg_le (k : SensSel) {r : Int} (hr : r.natAbs ≤ 2048) :
    (r * sensMg k).natAbs ≤ 8192 := by
  cases k <;> simp only [sensMg] <;> omega

/-- The range of 41_decoder.md R177: 80331 is 8192 mg in m/s² times 1000, rounded. -/
theorem scaleValue_natAbs_le (q : Quant) {g : Nat} (u : AccUnit) (k : SensSel) {r : Int}
    (hr : r.natAbs ≤ 2048) (hg : g ≤ 9806) :
    (scaleValue q g u (sensMg k) r).natAbs ≤ 80331 := by
  have hmg := natAbs_mul_sensMg_le k hr
  cases u with
  | mg => exact hmg.trans (by decide)
  | ms2 =>
    have hprod : (r * sensMg k * g).natAbs ≤ 8192 * 9806 := by
      rw [Int.natAbs_mul, Int.natAbs_natCast]
      exact Nat.mul_le_mul hmg hg
    have hdiv := quantDiv_thousand_natAbs_le q (r * sensMg k * g)
    simp only [scaleValue]
    omega

/-- Settles O17: the accuracy of the two divisions by 1000, which SCALE makes in m/s². -/
theorem requantisationAccuracy : Obligations.RequantisationAccuracy := by
  unfold Obligations.RequantisationAccuracy
  rintro r e g k rfl
  obtain ⟨herror, hnonneg, hnonpos⟩ := tdiv_thousand (r * sensMg k * g)
  obtain ⟨habs, hpos, hneg⟩ := ndiv_thousand (r * sensMg k * g)
  refine ⟨herror, hnonneg, hnonpos, ?_, ?_, fun q => scaleValue_neg q g .ms2 _ r⟩
  · simp only [scaleValue, quantDiv]
    omega
  · simp only [scaleValue, quantDiv]
    omega

end Sys2Proof.Machine
end

section
/-! DECODE and SCALE (41_decoder.md R173 to R177): the lanes, and the accepting step of each in an idle
block. -/

namespace Sys2Proof.Machine

variable {s : State}

theorem rawOf_getElem (k : Nat) (rx : Vector Byte 8) (i : Fin 3) :
    (rawOf k rx)[i] = asr16 (compose rx[2 * i.val] rx[2 * i.val + 1]) k := by
  fin_cases i <;> rfl

theorem physOf_getElem (p : Params) (r : ModeRow) (raw : Vector Half 3) (i : Fin 3) :
    (physOf p r raw)[i] = physLane p r raw[i] := by
  fin_cases i <;> rfl

/-- A scaled value of the range of R177 fits in 32 bits. -/
theorem physLane_toInt (p : Params) (r : ModeRow) {v : Half} (hv : v.toInt.natAbs ≤ 2048)
    (hg : p.gMilli ≤ 9806) :
    (physLane p r v).toInt = scaleValue p.quant p.gMilli r.unit (sensMg r.sens) v.toInt := by
  have hrange := scaleValue_natAbs_le p.quant r.unit r.sens hv hg
  exact BitVec.toInt_ofInt_eq_self (by decide) (by omega) (by omega)

theorem exec_decode_idle (h : s.blk.busy = false) :
    exec .decode s = .next { s with blk :=
      (s.blk.acceptDecoder (encode .decode)).setRaw (rawOf (shiftPlaces s.row.shift) s.blk.rxbuf) } :=
  s.accept_idle _ h

theorem exec_scale_idle (h : s.blk.busy = false) :
    exec .scale s = .next { s with blk :=
      (s.blk.acceptDecoder (encode .scale)).setPhys (physOf s.params s.row s.blk.raw) } :=
  s.accept_idle _ h

theorem shiftPlaces_le (k : ShiftSel) : shiftPlaces k ≤ 15 := by
  cases k <;> decide

/-- Settles O13: the shift of a lane is the floor over 16 or 64. -/
theorem decodeComputesRawSamples : Obligations.DecodeComputesRawSamples := by
  unfold Obligations.DecodeComputesRawSamples
  intro s hbusy
  refine ⟨_, exec_decode_idle hbusy, fun i => ?_⟩
  rw [rawOf_getElem, asr16_toInt, compose, State.row]
  cases (modeRow s.params.modeTable s.blk.modeSel).shift with
  | four => exact (Int.fdiv_eq_ediv_of_nonneg _ (by decide)).symm
  | six => exact (Int.fdiv_eq_ediv_of_nonneg _ (by decide)).symm

/-- Settles O14: the range and the sign bits of a shifted word. -/
theorem rawSampleRangeAfterDecode : Obligations.RawSampleRangeAfterDecode := by
  unfold Obligations.RawSampleRangeAfterDecode
  rintro s k hbusy rfl
  refine ⟨_, exec_decode_idle hbusy, fun i => ?_⟩
  rw [Block.setRaw_raw, rawOf_getElem]
  obtain ⟨hlow, hhigh⟩ := asr16_toInt_range
    (compose s.blk.rxbuf[2 * i.val] s.blk.rxbuf[2 * i.val + 1]) (shiftPlaces_le s.row.shift)
  exact ⟨hlow, hhigh, fun _ => asr16_getLsbD _⟩

/-- Settles O15: a lane is the exact scaled value narrowed to 32 bits, in each unit and with each
rounding. -/
theorem scaleComputesPhysicalSamples : Obligations.ScaleComputesPhysicalSamples := by
  unfold Obligations.ScaleComputesPhysicalSamples
  refine ⟨rfl, fun s hbusy => ⟨_, exec_scale_idle hbusy, fun i => ?_⟩⟩
  rw [physOf_getElem, physLane, State.row]
  congr 1
  cases (modeRow s.params.modeTable s.blk.modeSel).unit with
  | mg => rfl
  | ms2 =>
    cases s.params.quant with
    | trunc => exact tdiv_eq _ _
    | nearest => rfl

/-- Settles O16: the scaled values are in range, so narrowing them changes nothing. -/
theorem scaleDoesNotOverflow : Obligations.ScaleDoesNotOverflow := by
  unfold Obligations.ScaleDoesNotOverflow
  intro s hbusy hraw hg
  refine ⟨_, exec_scale_idle hbusy, fun i => ?_⟩
  rw [Block.setPhys_phys, physOf_getElem, physLane_toInt _ _ (hraw i) hg]
  refine ⟨rfl, scaleValue_natAbs_le _ _ _ (hraw i) hg, fun hunit => ?_⟩
  rw [State.row, hunit]
  exact natAbs_mul_sensMg_le _ (hraw i)

end Sys2Proof.Machine
end

section
/-! FRAME (41_decoder.md R179 to R185): where each byte of the frame stands; and the independence of the
lanes of the three commands. -/

namespace Sys2Proof.Machine

/-! ### The registers under a frame -/

theorem overlay_getElem?_of_some {new : List Byte} {k : Nat} {v : Byte} (h : new[k]? = some v)
    (hk : k < 14) (old : Vector Byte 14) : (overlay new old)[k]? = some v := by
  simp [overlay, hk, h]

theorem overlay_getElem?_beyond {new : List Byte} {k : Nat} (h : new.length ≤ k)
    (old : Vector Byte 14) : (overlay new old)[k]? = old[k]? := by
  by_cases hk : k < 14 <;> simp [overlay, hk, h]

/-! ### The bytes of a frame -/

section
variable (hdr ftr : Byte) (w : Nat) (phys : Vector Word 3)

@[simp] theorem axisField_length (p : Word) : (axisField w p).length = w := by
  simp [axisField]

theorem axisField_getElem? {j : Nat} (p : Word) (h : j < w) :
    (axisField w p)[j]? = some (p.extractLsb' (8 * j) 8) := by
  simp [axisField, h]

theorem axisField_append_inside {j : Nat} (p : Word) (l : List Byte) (h : j < w) :
    (axisField w p ++ l)[j]? = some (p.extractLsb' (8 * j) 8) := by
  rw [List.getElem?_append_left (by simpa using h), axisField_getElem? w p h]

@[simp] theorem axisField_append_after (p : Word) (l : List Byte) (k : Nat) :
    (axisField w p ++ l)[w + k]? = l[k]? := by
  simp [List.getElem?_append_right]

theorem frameBytes_eq_cons : frameBytes hdr ftr w phys =
    hdr :: (axisField w phys[0] ++ (axisField w phys[1] ++ (axisField w phys[2] ++ [ftr]))) := by
  simp [frameBytes]

theorem frameBytes_length : (frameBytes hdr ftr w phys).length = 2 + 3 * w := by
  simp +arith [frameBytes_eq_cons]

theorem frameBytes_header : (frameBytes hdr ftr w phys)[0]? = some hdr := rfl

theorem frameBytes_footer : (frameBytes hdr ftr w phys)[1 + 3 * w]? = some ftr := by
  rw [frameBytes_eq_cons, (by omega : 1 + 3 * w = w + (w + (w + 0)) + 1)]
  simp

theorem frameBytes_field (i : Fin 3) {j : Nat} (h : j < w) :
    (frameBytes hdr ftr w phys)[1 + w * i.val + j]? = some ((phys[i]).extractLsb' (8 * j) 8) := by
  rw [frameBytes_eq_cons]
  match i with
  | 0 =>
    rw [(by simp; omega : 1 + w * (0 : Fin 3).val + j = j + 1)]
    simp [axisField_append_inside, h]
  | 1 =>
    rw [(by simp; omega : 1 + w * (1 : Fin 3).val + j = w + j + 1)]
    simp [axisField_append_inside, h]
  | 2 =>
    rw [(by simp; omega : 1 + w * (2 : Fin 3).val + j = w + (w + j) + 1)]
    simp [axisField_append_inside, h]

end

theorem widthBytes_le (w : WidthSel) : widthBytes w ≤ 4 := by
  cases w <;> decide

/-- FRAMELEN holds the length without a wrap. -/
theorem frameLength_toNat (w : WidthSel) :
    (frameLength (widthBytes w)).toNat = 2 + 3 * widthBytes w := by
  cases w <;> rfl

/-- FRAME as an accepted FRAME leaves it. -/
def State.framedBytes (s : State) : Vector Byte 14 :=
  overlay (frameBytes s.params.header s.params.footer (widthBytes s.row.width) s.blk.phys) s.blk.frame

theorem exec_frame_idle {s : State} (h : s.blk.busy = false) :
    exec .frame s = .next { s with
      blk := (s.blk.acceptDecoder (encode .frame)).setFrame s.framedBytes
        (frameLength (widthBytes s.row.width)) } :=
  s.accept_idle _ h

theorem State.framedBytes_field (s : State) (i : Fin 3) {j : Nat}
    (h : j < widthBytes s.row.width) :
    s.framedBytes[1 + widthBytes s.row.width * i.val + j]? =
      some ((s.blk.phys[i]).extractLsb' (8 * j) 8) := by
  have hwidth := widthBytes_le s.row.width
  have hlane : widthBytes s.row.width * i.val ≤ 4 * 2 := Nat.mul_le_mul hwidth (by omega)
  exact overlay_getElem?_of_some (frameBytes_field _ _ _ _ i h) (by omega) _

/-- Settles O18: the header, the fields and the footer are the bytes of the frame; the bytes beyond are
the registers under it. -/
theorem frameLaysOutTheSamples : Obligations.FrameLaysOutTheSamples := by
  unfold Obligations.FrameLaysOutTheSamples
  refine ⟨rfl, rfl, ?_⟩
  rintro s w hbusy rfl
  refine ⟨s.framedBytes, exec_frame_idle hbusy, ?_, fun i _ => s.framedBytes_field i, ?_,
    fun k hk => ?_⟩
  · exact (Vector.getElem?_eq_some_iff.mp
      (overlay_getElem?_of_some (frameBytes_header _ _ _ _) (by decide) _)).2
  · have hwidth := widthBytes_le s.row.width
    exact overlay_getElem?_of_some (frameBytes_footer _ _ _ _) (by omega) _
  · exact overlay_getElem?_beyond ((frameBytes_length _ _ _ _).trans_le hk) _

/-- Settles O19: the layout of O18, with the length read back from FRAMELEN. -/
theorem frameLengthLaw : Obligations.FrameLengthLaw := by
  unfold Obligations.FrameLengthLaw
  intro s hbusy
  obtain ⟨hhdr, hftr, hlayout⟩ := frameLaysOutTheSamples
  obtain ⟨f, hexec, hheader, -, hfooter, -⟩ := hlayout s _ hbusy rfl
  have hlen := frameLength_toNat s.row.width
  have hlast : f[(frameLength (widthBytes s.row.width)).toNat - 1]? = some s.params.footer := by
    rw [hlen, (by omega : 2 + 3 * widthBytes s.row.width - 1 = 1 + 3 * widthBytes s.row.width)]
    exact hfooter
  refine ⟨_, hexec, hlen, ?_, hheader, hlast, ?_⟩
  · exact (frameLength_eq s.row.width).imp (congrArg BitVec.toNat) (congrArg BitVec.toNat)
  · intro hreset
    rw [← hhdr, ← hftr, ← hreset]
    exact ⟨hheader, hlast⟩

/-- Settles O20: each lane of a command is one function of the same lane of its input. -/
theorem axesDoNotInteract : Obligations.AxesDoNotInteract := by
  unfold Obligations.AxesDoNotInteract
  intro s u i hs hu hparams hmode
  have hrow : s.row = u.row := by rw [State.row, State.row, hparams, hmode]
  refine ⟨fun hlo hhi => ⟨_, _, exec_decode_idle hs, exec_decode_idle hu, ?_⟩,
    fun hraw => ⟨_, _, exec_scale_idle hs, exec_scale_idle hu, ?_⟩, ?_⟩
  · rw [Block.setRaw_raw, Block.setRaw_raw, rawOf_getElem, rawOf_getElem, hlo, hhi, hrow]
  · rw [Block.setPhys_phys, Block.setPhys_phys, physOf_getElem, physOf_getElem, hraw, hparams, hrow]
  · rintro hphys w rfl
    refine ⟨_, _, exec_frame_idle hs, exec_frame_idle hu, fun j hj => ?_⟩
    have hfield := u.framedBytes_field i (j := j)
    rw [← hphys, ← hrow] at hfield
    exact (s.framedBytes_field i hj).trans (hfield hj).symm

end Sys2Proof.Machine
end

section
/-! The command lines of the Sampling Controller (42_sequences.md R200, R201, R203, R207): which command each
line runs and how the sequence goes on, and what the host does at each part of a line. -/

namespace Sys2Proof.Machine

variable {s : State} {i : Instr} {line : CmdPoint → CtlPoint} {after : Word → State → State}

/-! ### The lines -/

/-- At every point of `line` the host runs the command line of `i`, and goes on with `after`. -/
def State.RunsLine (s : State) (i : Instr) (line : CmdPoint → CtlPoint)
    (after : Word → State → State) : Prop :=
  ∀ p, s.host.ctl = line p →
    agentStep .host s = commandLine i p (fun q => State.goto (line q)) after s

section
variable (hprog : s.host.prog = [])
include hprog

theorem State.runsLine_scan (a : Addr) : s.RunsLine (.probe a) (.scan a) (scanAfter a) :=
  fun p h => by rw [agentStep_host_ctl s hprog, ctlStep, h]

theorem State.runsLine_cfgRead (c : CtrlReg) :
    s.RunsLine (.rdreg s.params.devAddr (ctrlOffset s.params c)) (.cfgRead c) (cfgReadAfter c) :=
  fun p h => by rw [agentStep_host_ctl s hprog, ctlStep, h]

theorem State.runsLine_cfgWrite (c : CtrlReg) :
    s.RunsLine (.wrreg s.params.devAddr (ctrlOffset s.params c) (ctrlTarget s.params c))
      (.cfgWrite c) (cfgWriteAfter c) :=
  fun p h => by rw [agentStep_host_ctl s hprog, ctlStep, h]

theorem State.runsLine_status :
    s.RunsLine (.rdreg s.params.devAddr s.params.offStatus) .status
      (busAfter .statusCheck .statusByte) :=
  fun p h => by rw [agentStep_host_ctl s hprog, ctlStep, h]

theorem State.runsLine_acquire :
    s.RunsLine (acquireInstr s.params) .acquire (busAfter .acquire (.decode .submit)) :=
  fun p h => by rw [agentStep_host_ctl s hprog, ctlStep, h]

theorem State.runsLine_decode :
    s.RunsLine .decode .decode (fun _ => State.goto (.scale .submit)) :=
  fun p h => by rw [agentStep_host_ctl s hprog, ctlStep, h]

theorem State.runsLine_scale :
    s.RunsLine .scale .scale (fun _ => State.goto (.frame .submit)) :=
  fun p h => by rw [agentStep_host_ctl s hprog, ctlStep, h]

theorem State.runsLine_frame : s.RunsLine .frame .frame (fun _ => State.goto .frameLen) :=
  fun p h => by rw [agentStep_host_ctl s hprog, ctlStep, h]

end

/-! ### The three parts of a line -/

theorem State.RunsLine.submit (hline : s.RunsLine i line after) (h : s.host.ctl = line .submit) :
    agentStep .host s = submitWord (encode i) (s.goto (line .wait)) :=
  hline .submit h

theorem State.RunsLine.wait (hline : s.RunsLine i line after) (h : s.host.ctl = line .wait) :
    agentStep .host s =
      .next (s.readStat.goto (if s.blk.busy then line .wait else line .stat)) := by
  rw [hline .wait h, commandLine, s.statBusy_now]
  cases s.blk.busy <;> rfl

theorem State.RunsLine.stat (hline : s.RunsLine i line after) (h : s.host.ctl = line .stat) :
    agentStep .host s = .next (after s.statNow s.readStat) :=
  hline .stat h

/-- Settles O53: each of the ten lines runs its command, which is legal, so that the write of its word
to CMD is the command. -/
theorem controllerSubmitsItsCommands : Obligations.ControllerSubmitsItsCommands := by
  unfold Obligations.ControllerSubmitsItsCommands
  intro s i line hprog hcommand
  obtain ⟨after, hline, hwf⟩ : ∃ after, s.RunsLine i line after ∧ i.wellFormed = true := by
    rcases hcommand with ⟨a, rfl, rfl⟩ | ⟨rfl, rfl⟩ | ⟨rfl, rfl⟩ | ⟨rfl, rfl⟩ | ⟨rfl, rfl⟩ |
      ⟨rfl, rfl⟩ | ⟨rfl, rfl⟩ | ⟨rfl, rfl⟩ | ⟨rfl, rfl⟩ | ⟨rfl, rfl⟩
    · exact ⟨_, State.runsLine_scan hprog a, rfl⟩
    · exact ⟨_, State.runsLine_cfgRead hprog .ctrl1, rfl⟩
    · exact ⟨_, State.runsLine_cfgRead hprog .ctrl4, rfl⟩
    · exact ⟨_, State.runsLine_cfgWrite hprog .ctrl1, rfl⟩
    · exact ⟨_, State.runsLine_cfgWrite hprog .ctrl4, rfl⟩
    · exact ⟨_, State.runsLine_status hprog, rfl⟩
    · exact ⟨_, State.runsLine_acquire hprog, rfl⟩
    · exact ⟨_, State.runsLine_decode hprog, rfl⟩
    · exact ⟨_, State.runsLine_scale hprog, rfl⟩
    · exact ⟨_, State.runsLine_frame hprog, rfl⟩
  refine ⟨fun hctl => ⟨hline.submit hctl, ?_⟩, hline.wait⟩
  exact (hline.submit hctl).trans (submitWord_encode i hwf _)

/-! ### The read of STAT leaves all but the host's record -/

@[simp] theorem State.readStat_blk (s : State) : s.readStat.blk = s.blk := rfl
@[simp] theorem State.readStat_reports (s : State) :
    s.readStat.host.reports = s.host.reports := rfl
@[simp] theorem State.readStat_sink (s : State) : s.readStat.host.sink = s.host.sink := rfl
@[simp] theorem State.readStat_pend (s : State) : s.readStat.host.pend = s.host.pend := rfl

/-! ### SCAN and CONFIGURE -/

/-- Settles O55: the end of the line of a PROBE, with PRESENT 0 and 1. -/
theorem scanReportsThePresent : Obligations.ScanReportsThePresent := by
  unfold Obligations.ScanReportsThePresent
  intro s a hprog hctl
  refine ⟨_, (State.runsLine_scan hprog a).stat hctl, ?_⟩
  rw [scanAfter, s.statPresent_now]
  cases s.blk.present <;> simp

theorem cfgReadAfter_ok (c : CtrlReg) {v : Word} (s : State) (h : statCode v = .ok) :
    cfgReadAfter c v s = s.goto (.cfgByte c) :=
  if_pos h

theorem cfgReadAfter_failed (c : CtrlReg) {v : Word} (s : State) (h : statCode v ≠ .ok) :
    cfgReadAfter c v s = (s.report (.readFailed c (statCode v))).goto (nextCtrl c) :=
  if_neg h

/-- The read of `RXBUF[0]` in CONFIGURE and the comparison with the target. -/
theorem agentStep_cfgByte {c : CtrlReg} (hprog : s.host.prog = []) (h : s.host.ctl = .cfgByte c) :
    agentStep .host s = .next ((s.readRx 0).goto
      (if s.blk.rxbuf[0] = ctrlTarget s.params c then nextCtrl c else .cfgWrite c .submit)) := by
  simp only [agentStep_host_ctl s hprog, ctlStep, h, State.rxByte_eq]
  rfl

/-- Settles O56: the end of the line of a RDREG by its CODE, the comparison, and the end of the line of
a WRREG by its CODE. -/
theorem configureWritesOnlyOnDifference : Obligations.ConfigureWritesOnlyOnDifference := by
  unfold Obligations.ConfigureWritesOnlyOnDifference
  intro s c after hprog hafter
  obtain rfl : after = nextCtrl c := by cases c <;> exact hafter
  refine ⟨fun hctl => ?_, fun hctl => ?_, fun hctl => ?_⟩
  · refine ⟨_, (State.runsLine_cfgRead hprog c).stat hctl, ?_⟩
    by_cases hcode : s.blk.code = .ok
    · rw [cfgReadAfter_ok c _ (s.statCode_now.trans hcode)]
      simp [hcode]
    · rw [cfgReadAfter_failed c _ (s.statCode_now ▸ hcode)]
      simp [hcode]
  · refine ⟨_, agentStep_cfgByte hprog hctl, rfl, rfl, rfl, ?_⟩
    cases c <;> rfl
  · refine ⟨_, (State.runsLine_cfgWrite hprog c).stat hctl, ?_⟩
    rw [cfgWriteAfter, s.statCode_now]
    by_cases hcode : s.blk.code = .ok
    · simp [hcode]
    · simp [hcode]

end Sys2Proof.Machine
end

section
/-! The acquisition cycle (42_sequences.md R207 to R209): its gate, its failures and its path to Emit. -/

namespace Sys2Proof.Machine

variable {s : State}

/-! ### The gate -/

theorem agentStep_idle (hprog : s.host.prog = []) (h : s.host.ctl = .idle) :
    agentStep .host s = .next (if s.host.pend then s.goto (.status .submit) else s) := by
  rw [agentStep_host_ctl s hprog, ctlStep, h]

/-- The read of STATUS from `RXBUF[0]` and the test of ZYXDA. -/
theorem agentStep_statusByte (hprog : s.host.prog = []) (h : s.host.ctl = .statusByte) :
    agentStep .host s = .next ((s.readRx 0).goto
      (if (s.blk.rxbuf[0]).getLsbD s.params.zyxdaBit then .acquire .submit
      else .clear .statusCheck)) := by
  simp only [agentStep_host_ctl s hprog, ctlStep, h, State.rxByte_eq]
  rfl

/-- Settles O57: the steps at the test of STATUS and at Idle. -/
theorem onlyZyxdaGatesTheCycle : Obligations.OnlyZyxdaGatesTheCycle := by
  unfold Obligations.OnlyZyxdaGatesTheCycle
  refine ⟨rfl, fun s hprog hctl => ⟨_, agentStep_statusByte hprog hctl, rfl, rfl, rfl, rfl⟩,
    fun s hprog hctl => ⟨_, agentStep_idle hprog hctl, ?_⟩⟩
  cases s.host.pend
  · exact ⟨rfl, hctl⟩
  · exact ⟨rfl, rfl⟩

/-! ### The bus commands -/

theorem busAfter_ok (h : HState) (c : CtlPoint) {v : Word} (s : State) (hcode : statCode v = .ok) :
    busAfter h c v s = s.goto c :=
  if_pos hcode

theorem busAfter_failed (h : HState) (c : CtlPoint) {v : Word} (s : State)
    (hcode : statCode v ≠ .ok) :
    busAfter h c v s = (s.report (.busError (statCode v))).goto (.clear h) :=
  if_neg hcode

/-- Where a cycle ends: PEND is cleared and the host is back at Idle. -/
theorem agentStep_clear {h : HState} (hprog : s.host.prog = []) (hctl : s.host.ctl = .clear h) :
    agentStep .host s = .next ((s.setPend false).goto .idle) := by
  rw [agentStep_host_ctl s hprog, ctlStep, hctl]

theorem hostSteps_succ {t : State} (h : agentStep .host s = .next t) (k : Nat) :
    hostSteps (k + 1) s = hostSteps k t := by
  rw [hostSteps, h]

/-- A bus command of the cycle that failed takes two host steps from the read of STAT: the report and
the clear of PEND. -/
theorem State.RunsLine.failed {i : Instr} {line : CmdPoint → CtlPoint} {h : HState} {c : CtlPoint}
    (hline : s.RunsLine i line (busAfter h c)) (hprog : s.host.prog = [])
    (hctl : s.host.ctl = line .stat) (hcode : s.blk.code ≠ .ok) :
    hostSteps 2 s = .next
      ((((s.readStat.report (.busError s.blk.code)).goto (.clear h)).setPend false).goto .idle) := by
  have hstat := hline.stat hctl
  rw [busAfter_failed h c _ (s.statCode_now ▸ hcode), s.statCode_now] at hstat
  have hclear := agentStep_clear (s := (s.readStat.report (.busError s.blk.code)).goto (.clear h))
    hprog rfl
  exact (hostSteps_succ hstat 1).trans (hostSteps_succ hclear 0)

/-- Settles O58: both bus commands fail alike. -/
theorem failedCycleReportsOnceAndSendsNothing :
    Obligations.FailedCycleReportsOnceAndSendsNothing := by
  unfold Obligations.FailedCycleReportsOnceAndSendsNothing
  intro s hprog hctl hcode
  rcases hctl with hctl | hctl
  · exact ⟨_, (State.runsLine_acquire hprog).failed hprog hctl hcode, by simp⟩
  · exact ⟨_, (State.runsLine_status hprog).failed hprog hctl hcode, by simp⟩

/-- Settles O59: every line ends by going on to the next point, the two bus commands with CODE 0. -/
theorem successfulCommandsCarryTheCycleOn : Obligations.SuccessfulCommandsCarryTheCycleOn := by
  unfold Obligations.SuccessfulCommandsCarryTheCycleOn
  rintro s c c' hprog hctl hpoint
  have hstep : agentStep .host s = .next (s.readStat.goto c') := by
    rcases hpoint with ⟨rfl, rfl, hcode⟩ | ⟨rfl, rfl, hcode⟩ | ⟨rfl, rfl⟩ | ⟨rfl, rfl⟩ | ⟨rfl, rfl⟩
    · rw [(State.runsLine_status hprog).stat hctl, busAfter_ok _ _ _ (s.statCode_now.trans hcode)]
    · rw [(State.runsLine_acquire hprog).stat hctl, busAfter_ok _ _ _ (s.statCode_now.trans hcode)]
    · exact (State.runsLine_decode hprog).stat hctl
    · exact (State.runsLine_scale hprog).stat hctl
    · exact (State.runsLine_frame hprog).stat hctl
  exact ⟨_, hstep, rfl, rfl, rfl, rfl, rfl⟩

end Sys2Proof.Machine
end

section
/-! Emit (42_sequences.md R207): the host reads FRAMELEN and then that many bytes of FRAME, one a step, and
hands them over. -/

namespace Sys2Proof.Machine

variable {s t : State} {i n : Nat}

/-! ### The values read -/

/-- FRAMELEN as the host reads it. -/
theorem Block.readReg_framelen_toNat (b : Block) :
    (b.readReg .framelen).toNat = b.framelen.toNat := by
  have hlt : b.framelen.toNat < 2 ^ 32 := b.framelen.isLt.trans (by decide)
  simpa [Block.readReg] using hlt

/-- A byte of FRAME as the host reads it. -/
theorem Block.readReg_frame_byte (b : Block) (i : Fin 14) :
    (b.readReg (.frame i)).extractLsb' 0 8 = b.frame[i] := by
  simp [Block.readReg, BitVec.extractLsb'_setWidth_of_le]

/-! ### The steps -/

theorem agentStep_frameLen (hprog : s.host.prog = []) (hctl : s.host.ctl = .frameLen) :
    agentStep .host s = .next (((s.logRead offFramelen (s.blk.readReg .framelen)).setBuf []).goto
      (nextFrameByte 0 s.blk.framelen.toNat)) := by
  rw [agentStep_host_ctl s hprog, ctlStep, hctl, ← Block.readReg_framelen_toNat]

theorem agentStep_frameByte (hprog : s.host.prog = []) (i : Fin 14)
    (hctl : s.host.ctl = .frameByte i n) :
    agentStep .host s = .next (((s.logRead (offFrame i) (s.blk.readReg (.frame i))).setBuf
      (s.host.buf ++ [s.blk.frame[i]])).goto (nextFrameByte (i + 1) n)) := by
  have haccess : accessed (offFrame i) 4 = .ok (.frame i) := accessed_frame i
  simp only [agentStep_host_ctl s hprog, ctlStep, hctl, frameByteStep, haccess,
    Block.readReg_frame_byte]

theorem agentStep_send (hprog : s.host.prog = []) (hctl : s.host.ctl = .send) :
    agentStep .host s = .next (s.sendFrame.goto (.clear .emit)) := by
  rw [agentStep_host_ctl s hprog, ctlStep, hctl]

/-! ### The loop -/

/-- In `t` the host is at Emit and has read the first `i` of `n` bytes of the frame of `s`; nothing else
has changed that Emit speaks of. -/
structure State.HasRead (s : State) (i n : Nat) (t : State) : Prop where
  blk : t.blk = s.blk
  prog : t.host.prog = []
  ctl : t.host.ctl = nextFrameByte i n
  buf : t.host.buf = s.blk.frame.toList.take i
  sink : t.host.sink = s.host.sink
  pend : t.host.pend = s.host.pend
  reports : t.host.reports = s.host.reports

/-- The read of FRAMELEN starts the loop. -/
theorem agentStep_hasRead_zero (hprog : s.host.prog = []) (hctl : s.host.ctl = .frameLen) :
    ∃ t, agentStep .host s = .next t ∧ s.HasRead 0 s.blk.framelen.toNat t :=
  ⟨_, agentStep_frameLen hprog hctl, rfl, hprog, rfl, rfl, rfl, rfl, rfl⟩

/-- One byte more. -/
theorem State.HasRead.step (h : s.HasRead i n t) (hlt : i < n) (hn : n ≤ 14) :
    ∃ u, agentStep .host t = .next u ∧ s.HasRead (i + 1) n u := by
  have hctl : t.host.ctl = .frameByte i n := by rw [h.ctl, nextFrameByte, if_pos hlt]
  refine ⟨_, agentStep_frameByte h.prog ⟨i, by omega⟩ hctl, h.blk, h.prog, rfl, ?_, h.sink, h.pend,
    h.reports⟩
  have hlen : i < s.blk.frame.toList.length := by simp; omega
  rw [State.goto_buf, State.setBuf_buf, h.buf, h.blk, List.take_succ_eq_append_getElem hlen]
  simp

/-- The bytes left, one a step. -/
theorem State.HasRead.steps (k : Nat) (h : s.HasRead i (i + k) t) (hn : i + k ≤ 14) :
    ∃ u, s.HasRead (i + k) (i + k) u ∧ ∀ m, hostSteps (k + m) t = hostSteps m u := by
  induction k generalizing i t with
  | zero => exact ⟨t, h, fun m => by rw [Nat.zero_add]⟩
  | succ k ih =>
    obtain ⟨u, hstep, hu⟩ := h.step (by omega) hn
    rw [← Nat.add_assoc, Nat.add_right_comm] at hu hn ⊢
    obtain ⟨v, hv, hrun⟩ := ih hu hn
    exact ⟨v, hv, fun m => by rw [Nat.add_right_comm, hostSteps_succ hstep, hrun]⟩

/-- Settles O60: the loop reads the bytes, and two steps more hand them over and clear PEND. -/
theorem emitSendsTheFrameOnce : Obligations.EmitSendsTheFrameOnce := by
  unfold Obligations.EmitSendsTheFrameOnce
  rintro s n hprog hctl rfl hn
  obtain ⟨t, hlen, hstart⟩ := agentStep_hasRead_zero hprog hctl
  rw [← Nat.zero_add s.blk.framelen.toNat] at hstart hn
  obtain ⟨u, hread, hloop⟩ := hstart.steps _ hn
  rw [Nat.zero_add] at hread
  have hrun (m : Nat) : hostSteps (s.blk.framelen.toNat + (m + 1)) s = hostSteps m u := by
    rw [← Nat.add_assoc, hostSteps_succ hlen, hloop]
  have hsend := agentStep_send hread.prog (by rw [hread.ctl, nextFrameByte, if_neg (lt_irrefl _)])
  have hclear := agentStep_clear (s := u.sendFrame.goto (.clear .emit)) hread.prog rfl
  refine ⟨_, _, (hrun 1).trans (hostSteps_succ hsend 0), hread.blk, ?_, hread.pend, hread.reports,
    (hrun 2).trans ((hostSteps_succ hsend 1).trans (hostSteps_succ hclear 0)), hread.blk, rfl, rfl,
    rfl, hread.reports⟩
  rw [State.goto_sink, State.sendFrame_sink, hread.sink, hread.buf]

end Sys2Proof.Machine
end

section
/-! DECODE, SCALE and FRAME in a row (42_sequences.md R205): the field of an axis is its sample, with no
wrap (41_decoder.md R177, R179). -/

namespace Sys2Proof.Machine

variable {s : State}

/-! ### Little-endian bytes -/

theorem append_bytes_two (p : Word) : p.extractLsb' 8 8 ++ p.extractLsb' 0 8 = p.extractLsb' 0 16 :=
  BitVec.extractLsb'_append_extractLsb'_eq_extractLsb' rfl

theorem append_bytes_four (p : Word) :
    p.extractLsb' 24 8 ++ p.extractLsb' 16 8 ++ p.extractLsb' 8 8 ++ p.extractLsb' 0 8 = p := by
  have hhigh : p.extractLsb' 24 8 ++ p.extractLsb' 16 8 = p.extractLsb' 16 16 :=
    BitVec.extractLsb'_append_extractLsb'_eq_extractLsb' rfl
  have hmiddle : p.extractLsb' 16 16 ++ p.extractLsb' 8 8 = p.extractLsb' 8 24 :=
    BitVec.extractLsb'_append_extractLsb'_eq_extractLsb' rfl
  rw [hhigh, hmiddle]
  exact BitVec.extractLsb'_append_extractLsb'

/-- A value that fits in 16 bits is that of the low half of the word. -/
theorem toInt_extractLsb'_of_natAbs_lt {p : Word} (h : p.toInt.natAbs < 2 ^ 15) :
    (p.extractLsb' 0 16).toInt = p.toInt := by
  rw [BitVec.toInt_extractLsb', Nat.shiftRight_zero,
    ← Int.bmod_bmod_of_dvd (by decide : 2 ^ 16 ∣ 2 ^ 32), ← BitVec.toInt_eq_toNat_bmod]
  exact Int.bmod_eq_of_le (by omega) (by omega)

/-! ### The scaled sample -/

/-- A scaled value fits in 32 bits: in mg whatever the gravitational constant is, in 16 bits too. -/
theorem physLane_toInt_of_unit (p : Params) (r : ModeRow) {v : Half}
    (hv : v.toInt.natAbs ≤ 2048) (hg : r.unit = .ms2 → p.gMilli ≤ 9806) :
    (physLane p r v).toInt = scaleValue p.quant p.gMilli r.unit (sensMg r.sens) v.toInt := by
  have hrange : (scaleValue p.quant p.gMilli r.unit (sensMg r.sens) v.toInt).natAbs ≤ 80331 := by
    cases hunit : r.unit with
    | mg => exact scaleValue_natAbs_le (g := 0) p.quant .mg r.sens hv (Nat.zero_le _)
    | ms2 => exact scaleValue_natAbs_le p.quant .ms2 r.sens hv (hg hunit)
  exact BitVec.toInt_ofInt_eq_self (by decide) (by omega) (by omega)

/-- The RawSample that DECODE computes for axis `i`. -/
def State.rawSample (s : State) (i : Fin 3) : Half :=
  asr16 (compose s.blk.rxbuf[2 * i.val] s.blk.rxbuf[2 * i.val + 1]) (shiftPlaces s.row.shift)

/-- The range of R174 with either shift. -/
theorem State.rawSample_natAbs_le (s : State) (i : Fin 3) : (s.rawSample i).toInt.natAbs ≤ 2048 := by
  have hrange := asr16_toInt_range (compose s.blk.rxbuf[2 * i.val] s.blk.rxbuf[2 * i.val + 1])
    (shiftPlaces_le s.row.shift)
  rw [State.rawSample]
  cases hshift : s.row.shift with
  | four =>
    simp only [hshift, shiftPlaces] at hrange ⊢
    omega
  | six =>
    simp only [hshift, shiftPlaces] at hrange ⊢
    omega

/-- The state after the DECODE and the SCALE of an idle block. -/
def State.decodedScaled (s : State) : State :=
  { s with
    blk := (((s.blk.acceptDecoder (encode .decode)).setRaw
      (rawOf (shiftPlaces s.row.shift) s.blk.rxbuf)).acceptDecoder (encode .scale)).setPhys
        (physOf s.params s.row (rawOf (shiftPlaces s.row.shift) s.blk.rxbuf)) }

theorem State.decodedScaled_phys (s : State) (i : Fin 3) :
    s.decodedScaled.blk.phys[i] = physLane s.params s.row (s.rawSample i) := by
  rw [State.decodedScaled, Block.setPhys_phys, physOf_getElem, rawOf_getElem, State.rawSample]

@[simp] theorem State.decodedScaled_row (s : State) : s.decodedScaled.row = s.row := rfl

/-- The three commands in a row complete in an idle block, and the frame holds the bytes of the scaled
RawSamples. -/
theorem exec_decodeAll (hbusy : s.blk.busy = false) :
    ∃ t1 t2 t3, exec .decode s = .next t1 ∧ exec .scale t1 = .next t2 ∧
      exec .frame t2 = .next t3 ∧ ∀ (i : Fin 3) (j : Nat), j < widthBytes s.row.width →
        t3.blk.frame[1 + j + widthBytes s.row.width * i.val]? =
          some ((physLane s.params s.row (s.rawSample i)).extractLsb' (8 * j) 8) := by
  refine ⟨_, s.decodedScaled, _, exec_decode_idle hbusy, exec_scale_idle hbusy,
    exec_frame_idle hbusy, fun i j hj => ?_⟩
  rw [Block.setFrame_frame, ← s.decodedScaled_phys i, Nat.add_right_comm]
  exact s.decodedScaled.framedBytes_field i hj

/-- Settles O21: the bytes of the field of axis `i` are those of its scaled RawSample, whose value is
in range. -/
theorem decodeAllEncodesTheSample : Obligations.DecodeAllEncodesTheSample := by
  unfold Obligations.DecodeAllEncodesTheSample
  rintro s i row v hbusy hrow hg hv
  obtain rfl : row = s.row := hrow
  obtain ⟨t1, t2, t3, hdecode, hscale, hframe, hfield⟩ := exec_decodeAll hbusy
  have hlane : (physLane s.params s.row (s.rawSample i)).toInt = v := by
    rw [physLane_toInt_of_unit _ _ (s.rawSample_natAbs_le i) hg, State.rawSample, asr16_toInt, hv,
      Int.fdiv_eq_ediv_of_nonneg _ (by positivity)]
    rfl
  refine ⟨t1, t2, t3, hdecode, hscale, hframe, fun hwidth => ?_, fun hwidth hunit => ?_⟩
  · have hbyte := hfield i
    rw [hwidth, widthBytes] at hbyte
    exact ⟨_, _, _, _, hbyte 0 (by decide), hbyte 1 (by decide), hbyte 2 (by decide),
      hbyte 3 (by decide), (congrArg BitVec.toInt (append_bytes_four _)).trans hlane⟩
  · have hbyte := hfield i
    rw [hwidth, widthBytes] at hbyte
    have hsmall : (physLane s.params s.row (s.rawSample i)).toInt.natAbs ≤ 8192 := by
      rw [physLane_toInt_of_unit _ _ (s.rawSample_natAbs_le i) hg, hunit]
      exact natAbs_mul_sensMg_le _ (s.rawSample_natAbs_le i)
    refine ⟨_, _, hbyte 0 (by decide), hbyte 1 (by decide), ?_⟩
    exact (congrArg BitVec.toInt (append_bytes_two _)).trans
      ((toInt_extractLsb'_of_natAbs_lt (hsmall.trans_lt (by decide))).trans hlane)

end Sys2Proof.Machine
end

section
/-! The exceptions of the spec: an illegal word written to CMD, and a tick (60_exceptions.md R233, R241,
R243). -/

namespace Sys2Proof.Machine

variable {s : State}

/-! ### An illegal word -/

/-- A word that does not decode is accepted as an illegal one. -/
theorem submitWord_of_reject {w : Word} {e : Reject} (h : decodeWord w = .error e) (s : State) :
    submitWord w s = s.accept (Block.acceptIllegal w) := by
  simp only [submitWord, h]

/-- Settles O7: the write of CMD is an acceptance of the word as an illegal one. -/
theorem illegalWordIsAccepted : Obligations.IllegalWordIsAccepted := by
  unfold Obligations.IllegalWordIsAccepted
  intro w e s hreject hbusy
  have hcmd : hostWrite 0x00 4 w s = submitWord w s :=
    hostWrite_of_accessed (r := .cmd) w s rfl
  calc hostWrite 0x00 4 w s
      = s.accept (Block.acceptIllegal w) := hcmd.trans (submitWord_of_reject hreject s)
    _ = .next { s with blk := s.blk.acceptIllegal w } := s.accept_idle _ hbusy

/-! ### A tick -/

theorem agentStep_tick_started (h : s.host.tickOn = true) :
    agentStep .tick s = .next (s.setPend true) := by
  simp only [agentStep, tickStep, if_pos h]

theorem agentStep_tick_notStarted (h : s.host.tickOn = false) : agentStep .tick s = .next s := by
  simp [agentStep, tickStep, h]

/-- Setting a PEND that is set changes nothing (60_exceptions.md R243). -/
theorem State.setPend_true_of_pend (h : s.host.pend = true) : s.setPend true = s := by
  rw [← h]
  rfl

/-- Settles O50: the tick sets PEND, which changes nothing where it is set already. -/
theorem tickSetsPend : Obligations.TickSetsPend := by
  unfold Obligations.TickSetsPend
  refine fun s => ⟨fun hon => ⟨agentStep_tick_started hon, fun hpend => ?_⟩,
    agentStep_tick_notStarted⟩
  rw [agentStep_tick_started hon, State.setPend_true_of_pend hpend]

end Sys2Proof.Machine
end

section
/-! The last two steps of the boot (70_reset_and_hazards.md R263 d, e): SETMODE, then the tick source. -/

namespace Sys2Proof.Machine

variable {s : State}

/-- A host write of MODE stores its bit 0 in SEL. -/
theorem hostWrite_mode (v : Word) (s : State) :
    hostWrite offMode 4 v s = .next (s.withBlk (Block.writeMode v)) :=
  hostWrite_of_accessed (r := .mode) v s rfl

/-- The word that the host writes to MODE for a mode stores that mode. -/
theorem Block.writeMode_bit (m : Bool) (b : Block) :
    b.writeMode ((bit m).zeroExtend 32) = { b with modeSel := m } := by
  cases m <;> rfl

theorem agentStep_setMode (hprog : s.host.prog = []) (hctl : s.host.ctl = .setMode) :
    agentStep .host s = .next ((s.goto .startTick).withBlk
      (Block.writeMode ((bit s.params.bootMode).zeroExtend 32))) := by
  rw [agentStep_host_ctl s hprog, ctlStep, hctl]
  exact hostWrite_mode _ _

theorem agentStep_startTick (hprog : s.host.prog = []) (hctl : s.host.ctl = .startTick) :
    agentStep .host s = .next (s.startTick.goto .idle) := by
  rw [agentStep_host_ctl s hprog, ctlStep, hctl]

/-- Settles O54: the first step is a write of MODE, whose bit 0 is the target mode; the second changes
the host side alone. -/
theorem bootSetsTheModeThenStartsTheTick : Obligations.BootSetsTheModeThenStartsTheTick := by
  unfold Obligations.BootSetsTheModeThenStartsTheTick
  refine ⟨fun s hprog hctl => ?_, fun s hprog hctl => agentStep_startTick hprog hctl⟩
  rw [agentStep_setMode hprog hctl, State.withBlk, Block.writeMode_bit]
  rfl

end Sys2Proof.Machine
end
